-- ==== Sys2Proof/Word.lean ====
section
/-! DEFINITION. The word types of the memory path: bytes, the 64-byte beat every transfer is counted in
(00_scope.md, "Beat"), and its byte enables (R1). A beat is read least significant byte first (R185), so byte `i`
of a beat stands in bits `8 * i` to `8 * i + 7`. -/

namespace Sys2Proof

/-- One byte. -/
abbrev Byte := BitVec 8

/-- One beat of 64 bytes. -/
abbrev Beat := BitVec 512

/-- One enable per byte of a beat. -/
abbrev Enables := BitVec 64

/-- A 64-bit number: local positions, identities, take keys. -/
abbrev Word64 := BitVec 64

end Sys2Proof
end

