-- ==== Sys2Proof/Syntax.lean ====
section
/-! DEFINITION. The commands of the part: one constructor for each row of spec/opcode_table.json, with its operands.

An event that reaches the bridge from outside carries `dt`, the ticks of the 27 MHz time clock that pass before it
(log entry 1). An event whose instant the bridge itself fixes carries none: it is the next thing that happens, at its
own instant (log entry 2). A row that the rules make part of another event carries the thing it concerns
(log entry 3). -/

namespace Sys2Proof

/-- One data beat of a write with its byte enables (R1). -/
structure WriteBeat where
  data    : Beat
  enables : Enables
  deriving DecidableEq, Repr

/-- What a request asks for (R1): a read of a number of beats, or a write of data beats. -/
inductive Access
  | read (beats : Nat)
  | write (beats : List WriteBeat)
  deriving DecidableEq, Repr

/-- A request as an initiator presents it on the system link (R1). -/
structure Request where
  initiator : Fin 64
  addr      : BitVec 40
  access    : Access
  deriving DecidableEq, Repr

/-- The memory controller's answer to a transaction (R3): OKAY, with the data of a read, or FAULT. -/
inductive StoreResponse
  | okay (data : List Beat)
  | fault
  deriving DecidableEq, Repr

/-- A timecode word as TCI delivers it (R58). -/
structure TimecodeWord where
  hours   : Nat
  minutes : Nat
  seconds : Nat
  frames  : Nat
  drop    : Bool
  deriving DecidableEq, Repr

/-- The commands of the part, in the order of spec/opcode_table.json. -/
inductive Instr
  | powerOn (dt : Nat) (cwb : BitVec 4)
  | resetAssert (dt : Nat)
  | resetRelease (dt : Nat) (cwb : BitVec 4)
  | systemLinkOpen
  | requestTaken (dt : Nat) (request : Request)
  | heldReadRelease (source : Fin 32) (slot : Nat)
  | heldDeadline (initiator : Fin 64)
  | arbiterChoice (dt : Nat)
  | ownWriteAgeLimit
  | offeredWriteJoin
  | forwardedResponse (dt : Nat) (tag : Nat) (response : StoreResponse)
  | redirectedReadResponse (dt : Nat) (tag : Nat) (response : StoreResponse)
  | waitingHeaderRelease (source : Fin 32) (slot : Nat)
  | sourceBecomesEmpty (source : Fin 32)
  | slugReadResponse (dt : Nat) (tag : Nat) (response : StoreResponse)
  | ownWriteResponse (dt : Nat) (tag : Nat) (okay : Bool)
  | frameBoundary
  | fpoFall
  | markerPartEnd (line : Fin 4)
  | refPulse (dt : Nat)
  | acquireDeadline
  | missingPulse
  | timecodeWord (dt : Nat) (word : TimecodeWord)
  | settingsWrite (dt : Nat) (data : Beat) (enables : Enables)
  | consumerWrite (dt : Nat) (data : Beat) (enables : Enables)
  | controlWriteIgnored (dt : Nat) (offset : Nat) (data : Beat) (enables : Enables)
  | timebaseSet (dt : Nat) (slot : Fin 16) (record : Beat)
  | timePreset (dt : Nat) (slot : Fin 16) (record : Beat)
  | jamMode (dt : Nat) (slot : Fin 16) (record : Beat)
  | referenceEnable (dt : Nat) (slot : Fin 16) (record : Beat)
  | referenceDisable (dt : Nat) (slot : Fin 16) (record : Beat)
  | sourceOpen (dt : Nat) (slot : Fin 16) (record : Beat)
  | sourceRequalify (dt : Nat) (slot : Fin 16) (record : Beat)
  | sourceClose (dt : Nat) (slot : Fin 16) (record : Beat)
  | lateMonitor (dt : Nat) (slot : Fin 16) (record : Beat)
  | anchorSet (dt : Nat) (slot : Fin 16) (record : Beat)
  | indexSet (dt : Nat) (slot : Fin 16) (record : Beat)
  | groupSet (dt : Nat) (slot : Fin 16) (record : Beat)
  | takeArm (dt : Nat) (slot : Fin 16) (record : Beat)
  | takeStop (dt : Nat) (slot : Fin 16) (record : Beat)
  | takeAbandon (dt : Nat) (slot : Fin 16) (record : Beat)
  | windowOpen (dt : Nat) (slot : Fin 16) (record : Beat)
  | windowCue (dt : Nat) (slot : Fin 16) (record : Beat)
  | windowClose (dt : Nat) (slot : Fin 16) (record : Beat)
  | markerSet (dt : Nat) (slot : Fin 16) (record : Beat)
  | markerFire (dt : Nat) (slot : Fin 16) (record : Beat)
  | markerStop (dt : Nat) (slot : Fin 16) (record : Beat)
  | attentionAck (dt : Nat) (slot : Fin 16) (record : Beat)
  | restart (dt : Nat) (slot : Fin 16) (record : Beat)
  | commandUnknown (dt : Nat) (slot : Fin 16) (record : Beat)
  | restartDrainEnd
  | collision (dt : Nat) (slot : Fin 16) (record : Beat)
  deriving DecidableEq, Repr

end Sys2Proof
end

