-- ==== Sys2Proof/Decode.lean ====
section
/-! DEFINITION. Decoding by the table's bits. No row of spec/opcode_table.json gives bits (its "fields" are empty and
it has no "fixed" entry): a command of this block is an event, not a word. So no word spells a command. The records
that software writes into command slots are decoded by the command unit (Machine/Operands.lean, R187). -/

namespace Sys2Proof

/-- The command that a word spells by the table's bits: none, for no row gives bits. -/
def decodeTableWord (_nbits _w : Nat) : Option Instr := none

end Sys2Proof
end

