-- ==== Sys2Proof/Config.lean ====
section
/-! DEFINITION. The values the manual leaves open. Each is a constant with no body: nothing can be proved of its
value, so a claim about the model is a claim for every value. -/

namespace Sys2Proof.Config

/-- FREE VALUE (log entry 10). Bytes 4 to 7 of the first detail word of a LATE_CHANGE report when the lateness
does not fit a signed 32-bit field (R120, R188): the manual gives the field 4 bytes and does not say what it holds
for a larger lateness. -/
opaque lateWord : Int → BitVec 32

/-- FREE VALUE (log entry 11). The local position of a sound candidate anchor when the clap position X lies below
the sample offset o, so that X − o is below 0 (R114): the manual gives the field the range 0..2^64 − 1 and does not
say what it holds then. -/
opaque candidatePosition : Word64 → Nat → Word64

end Sys2Proof.Config
end

