-- ==== Sys2Proof/Machine/Bytes.lean ====
section
/-! DEFINITION. Reading and building beats. Every multi-byte number is stored with its least significant byte at the
lowest address, and a byte no layout defines is written as zero (R185). -/

namespace Sys2Proof.Machine

/-- The unsigned number in `size` bytes from byte offset `off` of a beat (R185). -/
def field (b : Beat) (off size : Nat) : Nat :=
  (b.extractLsb' (8 * off) (8 * size)).toNat

/-- The 8 bytes from byte offset `off` of a beat as a 64-bit word: byte i of a byte string is byte i of the word. -/
def field64 (b : Beat) (off : Nat) : Word64 :=
  b.extractLsb' (8 * off) 64

/-- A signed number of `size` bytes, in two's complement across the width of its field (R185). -/
def fieldInt (b : Beat) (off size : Nat) : Int :=
  (b.extractLsb' (8 * off) (8 * size)).toInt

/-- One bit of the number at an offset. -/
def fieldBit (b : Beat) (off bit : Nat) : Bool :=
  b.getLsbD (8 * off + bit)

/-- A beat from a layout: triples of offset, size in bytes and value; every other byte is zero (R185). -/
def pack (fields : List (Nat × Nat × Nat)) : Beat :=
  fields.foldl (fun b f => b ||| (BitVec.ofNat 512 (f.2.2 % 2 ^ (8 * f.2.1)) <<< (8 * f.1))) 0#512

/-- A signed number across the 8 bytes of a word (R188). -/
def int64 (x : Int) : Nat :=
  (BitVec.ofInt 64 x).toNat

/-- A flag held in a whole byte or bit: 0 for clear, 1 for set (R185). -/
def flagNat (b : Bool) : Nat :=
  if b then 1 else 0

/-- A word of several values, one byte each, from byte 0 upward (R188). -/
def byteWord : List Nat → Nat
  | []      => 0
  | v :: vs => v % 256 + 256 * byteWord vs

/-- All 64 byte enables of a beat set. -/
def allEnables : Enables :=
  0xFFFFFFFFFFFFFFFF#64

/-- The byte enables of the `n`-th 8-byte word of a beat. -/
def wordEnables (n : Nat) : Enables :=
  0xFF#64 <<< (8 * n)

end Sys2Proof.Machine
end

