-- ==== Sys2Proof/Machine/PictureTime.lean ====
section
/-! DEFINITION. Picture-time arithmetic: the rate table of 00_scope.md, the picture-count range and signed difference
(R22), labels (R31 to R33), samples in frames (R34 to R36), and the stamp computations (R94 to R96). Picture counts
are integers, so they are `Nat`; a local position is a 64-bit word. -/

namespace Sys2Proof.Machine

/-- A rate code, 0..10 (00_scope.md, section Rates). -/
abbrev Rate := Fin 11

/-- Frame period in ticks. -/
def Rate.period (r : Rate) : Nat :=
  [1126125, 1125000, 1080000, 900900, 900900, 900000, 562500, 540000, 450450, 450450, 450000].getD r.val 0

/-- Timecode base. -/
def Rate.base (r : Rate) : Nat :=
  [24, 24, 25, 30, 30, 30, 48, 50, 60, 60, 60].getD r.val 0

/-- Labels dropped at the start of each minute that is not a multiple of ten; 0 at a rate without drop. -/
def Rate.drop (r : Rate) : Nat :=
  [0, 0, 0, 0, 2, 0, 0, 0, 0, 4, 0].getD r.val 0

/-- Whether the rate is a drop-frame rate (codes 4 and 9). -/
def Rate.isDrop (r : Rate) : Bool :=
  r.drop != 0

/-- Frames per day, N. -/
def Rate.framesPerDay (r : Rate) : Nat :=
  [2073600, 2073600, 2160000, 2592000, 2589408, 2592000, 4147200, 4320000, 5184000, 5178816, 5184000].getD r.val 0

/-- The picture-count range R = 65,536 × N (R22). -/
def Rate.range (r : Rate) : Nat :=
  65536 * r.framesPerDay

/-- The rate of a code, if it lies in 0..10. -/
def rateOfCode (n : Nat) : Option Rate :=
  if h : n < 11 then some ⟨n, h⟩ else none

/-- A picture count plus a number of frames, modulo R (R22). -/
def countAdd (r : Rate) (a : Nat) (k : Int) : Nat :=
  ((a + k) % (r.range : Int)).toNat

/-- The signed difference of two picture counts: congruent to a − b modulo R, in −R/2..R/2 − 1 (R22). -/
def signedDiff (r : Rate) (a b : Nat) : Int :=
  ((a : Int) - b + r.range / 2) % (r.range : Int) - r.range / 2

/-- "Count a is at or after count b" (R22). -/
def atOrAfter (r : Rate) (a b : Nat) : Bool :=
  decide (0 ≤ signedDiff r a b)

/-- The day of a picture count (R21). -/
def dayOf (r : Rate) (pc : Nat) : Nat :=
  pc / r.framesPerDay

/-- The frame-of-day of a picture count (R21). -/
def frameOfDay (r : Rate) (pc : Nat) : Nat :=
  pc % r.framesPerDay

/-- A picture count is the day times the frames per day plus the frame-of-day (00_scope.md, Units and quantities), taken
modulo R like every result that is a picture count (R22). -/
def countOfDay (r : Rate) (day f : Nat) : Nat :=
  (day * r.framesPerDay + f) % r.range

/-- A timecode label. -/
structure Label where
  hours   : Nat
  minutes : Nat
  seconds : Nat
  frames  : Nat
  deriving DecidableEq, Repr

/-- R31: the label read from a label number by the timecode base. -/
def labelOfNumber (base l : Nat) : Label :=
  { hours := l / (3600 * base), minutes := l / (60 * base) % 60, seconds := l / base % 60, frames := l % base }

/-- R32: the label number of a frame-of-day; the frame-of-day itself at a rate without drop (R31). -/
def labelNumber (r : Rate) (f : Nat) : Nat :=
  if r.isDrop then
    let m1 := 60 * r.base
    let md := m1 - r.drop
    let tenMinutes := 10 * m1 - 9 * r.drop
    let t := f / tenMinutes
    let rest := f % tenMinutes
    let a := if rest < m1 then 0 else r.drop * (1 + (rest - m1) / md)
    f + 9 * r.drop * t + a
  else f

/-- R31, R32: the label of a frame-of-day. -/
def labelOf (r : Rate) (f : Nat) : Label :=
  labelOfNumber r.base (labelNumber r f)

/-- R33: whether a label is one of the dropped ones. -/
def Label.dropped (r : Rate) (l : Label) : Bool :=
  r.isDrop && l.minutes % 10 != 0 && l.seconds == 0 && decide (l.frames < r.drop)

/-- R33: whether a label is valid at a rate. -/
def Label.valid (r : Rate) (l : Label) : Bool :=
  decide (l.hours < 24) && decide (l.minutes < 60) && decide (l.seconds < 60) && decide (l.frames < r.base)
    && !l.dropped r

/-- R33: a label with a drop flag is valid when the label is and the flag agrees with the rate. -/
def Label.validWithFlag (r : Rate) (l : Label) (drop : Bool) : Bool :=
  l.valid r && drop == r.isDrop

/-- R33: the frame-of-day of a valid label. -/
def Label.frameOfDay (r : Rate) (l : Label) : Nat :=
  let k := l.hours * 60 + l.minutes
  (k * 60 + l.seconds) * r.base + l.frames - r.drop * (k - k / 10)

/-- R58: the label that follows a valid label at the rate, dropped labels passed over, with 00:00:00:00 after the last
of the day. A label that is not valid at the rate has no follower (log entry 16). -/
def Label.next (r : Rate) (l : Label) : Option Label :=
  if l.valid r then some (labelOf r ((l.frameOfDay r + 1) % r.framesPerDay)) else none

/-- R30: the count that a count of the old rate becomes at the new rate. `c` is the count the frame would have had. -/
def convertCount (old new : Rate) (c : Nat) : Nat :=
  let l := labelOf old (frameOfDay old c)
  let l1 : Label := { l with frames := l.frames * new.base / old.base }
  let l2 : Label := if l1.dropped new then { l1 with frames := new.drop } else l1
  countOfDay new (dayOf old c) (l2.frameOfDay new)

/-! ### Samples in picture frames -/

/-- The sample rates of a sound source. -/
inductive SampleRate
  | k48 | k96 | k192
  deriving DecidableEq, Repr

/-- R34: the multiplier of a sample rate. -/
def SampleRate.multiplier : SampleRate → Nat
  | .k48 => 1
  | .k96 => 2
  | .k192 => 4

/-- R34: samples per frame at 48 kHz at cadence position `c`. -/
def samplesAt48 (r : Rate) (c : Nat) : Nat :=
  match r.val with
  | 0 => 2002
  | 1 => 2000
  | 2 => 1920
  | 5 => 1600
  | 6 => 1000
  | 7 => 960
  | 10 => 800
  | 3 | 4 => [1602, 1601, 1602, 1601, 1602].getD c 0
  | _ => [801, 801, 801, 801, 800].getD c 0

/-- R34: samples per frame P of a source's sample rate at cadence position `c`. -/
def samplesPerFrame (r : Rate) (sr : SampleRate) (c : Nat) : Nat :=
  samplesAt48 r c * sr.multiplier

/-- R35: the cadence position of the frame `j` frames after an anchor of cadence base `base`. -/
def cadencePosition (base : Nat) (j : Int) : Nat :=
  (((base : Int) + j) % 5).toNat

/-- The sum of P over `n` positions from `c`, each taken mod 5. -/
def partialSpan (r : Rate) (sr : SampleRate) (c : Nat) : Nat → Nat
  | 0     => 0
  | n + 1 => partialSpan r sr c n + samplesPerFrame r sr ((c + n) % 5)

/-- R36: the sample span of `n ≥ 0` frames from cadence position `c`. -/
def spanNat (r : Rate) (sr : SampleRate) (c n : Nat) : Nat :=
  n / 5 * partialSpan r sr 0 5 + partialSpan r sr c (n % 5)

/-- R36: the sample span S(c, n), negated and counted backward for a negative `n`. -/
def span (r : Rate) (sr : SampleRate) (c : Nat) (n : Int) : Int :=
  if 0 ≤ n then spanNat r sr c n.toNat else -(spanNat r sr (cadencePosition c n) (-n).toNat : Int)

/-! ### Stamps -/

/-- A stamp: a count with a fraction (00_scope.md, Units and quantities). -/
structure Stamp where
  count : Nat
  frac  : Nat
  deriving DecidableEq, Repr

/-- The signed 64-bit difference of two local positions (R93). -/
def positionDiff (p q : Word64) : Int :=
  (p - q).toInt

/-- R94: the stamp of a camera header at distance `d` from an anchor of count `pc`, at speed ratio `q`. -/
def cameraStamp (r : Rate) (pc q : Nat) (d : Int) : Stamp :=
  { count := countAdd r pc (d / (q : Int)), frac := (d % (q : Int)).toNat }

/-- The largest number of frames below five whose span from `c` does not exceed `rest`. -/
def framesWithin (r : Rate) (sr : SampleRate) (c rest : Nat) : Nat → Nat
  | 0     => 0
  | n + 1 => if partialSpan r sr c (n + 1) ≤ rest then n + 1 else framesWithin r sr c rest n

/-- R95: the integer k with S(c, k) ≤ d < S(c, k + 1). -/
def soundFrames (r : Rate) (sr : SampleRate) (c : Nat) (d : Int) : Int :=
  let five : Int := partialSpan r sr 0 5
  d / five * 5 + framesWithin r sr c (d % five).toNat 4

/-- R95: the stamp of a sound header at distance `d` from an anchor of count `pc` and cadence base `c`. -/
def soundStamp (r : Rate) (sr : SampleRate) (pc c : Nat) (d : Int) : Stamp :=
  let k := soundFrames r sr c d
  { count := countAdd r pc k, frac := (d - span r sr c k).toNat }

/-- R96: the stamp of a slate header from the arrival count and phase and the slate's latency in ticks. -/
def slateStamp (r : Rate) (pc phase latency : Nat) : Stamp :=
  let cap (f : Nat) : Nat := if r.period ≤ f then r.period - 1 else f
  if latency ≤ phase then { count := pc, frac := cap (phase - latency) }
  else
    let short := latency - phase
    let j := (short + r.period - 1) / r.period
    { count := countAdd r pc (-(j : Int)), frac := cap (j * r.period - short) }

end Sys2Proof.Machine
end

