-- ==== Sys2Proof/Machine/Types.lean ====
section
/-! DEFINITION. The records the blocks of the bridge hold, with the names of the manual. Plain data throughout. -/

namespace Sys2Proof.Machine

/-! ### Starts and the memory path -/

/-- The three starts (00_scope.md, Starts). -/
inductive StartKind
  | powerOn | resetLine | restart
  deriving DecidableEq, Repr

/-- What is returned to an initiator (R1): OKAY with the data of a read, or FAULT. -/
inductive Answer
  | okay (data : List Beat)
  | fault
  deriving DecidableEq, Repr

/-- A response given on the system link: the initiator, the number of the request, and the answer. -/
structure Returned where
  initiator : Fin 64
  request   : Nat
  answer    : Answer
  deriving DecidableEq, Repr

/-- A request that has been taken and not yet answered (R1, R8). `parts` counts the transactions formed and not yet
answered; `forming` holds while beats of a capture write still wait (R11); `faulted` that a part was answered FAULT. -/
structure Taken where
  request   : Nat
  initiator : Fin 64
  parts     : Nat
  forming   : Bool
  faulted   : Bool
  answer    : Option Answer
  deriving DecidableEq, Repr

/-- What a transaction of the forwarded stream carries (R3, R12), with the number of the request it belongs to. -/
inductive Cargo
  | control (request : Nat)
  | capture (request : Nat)
  | plain (request : Nat)
  | redirected (request : Nat)
  | slug (request : Nat)
  deriving DecidableEq, Repr

/-- A transaction on the store link that is not an own write (R3): a whole request, a part, or an own read. -/
structure Transaction where
  tag    : Nat
  cargo  : Cargo
  addr   : Nat
  access : Access
  deriving DecidableEq, Repr

/-- What an own write is (R14, R179). -/
inductive OwnKind
  | statusRecord (slot : Nat)
  | writeBack (word : Nat)
  | report (sequence : Nat)
  | statusPart (beat : Nat)
  | index (sequence : Nat)
  | startUp (offset : Nat)
  deriving DecidableEq, Repr

/-- An own write: 1 to 4 consecutive beats with byte enables (R14), and the tick at which it joined the queue (R13). -/
structure OwnWrite where
  kind   : OwnKind
  addr   : Nat
  beats  : List WriteBeat
  joined : Nat
  deriving DecidableEq, Repr

/-- An issued own write awaiting its response (R17). -/
structure OwnIssued where
  tag   : Nat
  write : OwnWrite
  deriving DecidableEq, Repr

/-- A start-up write answered FAULT, whose STORE_ERROR record is produced when the system link opens (R19). -/
structure StartupFault where
  write : OwnWrite
  pc    : Nat
  deriving DecidableEq, Repr

/-- The class of a presented request (R4), or REFUSED under R5. -/
inductive RequestClass
  | refused
  | control
  | window (number : Fin 8)
  | capture (source : Fin 32)
  | plain
  deriving DecidableEq, Repr

/-! ### Timebase and reference monitor -/

/-- A pending preset (R37, R38). -/
structure Preset where
  day   : Nat
  label : Label
  slot  : Fin 16
  deriving DecidableEq, Repr

/-- The jam modes (R62). -/
inductive JamMode
  | off | once | continuous
  deriving DecidableEq, Repr

/-- The current run of timecode words (R58). -/
structure JamRun where
  length : Nat
  offset : Int
  last   : Label
  deriving DecidableEq, Repr

/-- The lock states (R41). -/
inductive LockState
  | free | acquire | locked | holdover
  deriving DecidableEq, Repr

/-- The causes of a LOCK_STATE report (R56). -/
inductive LockCause
  | pulse | lock | missingPulse | excursion | returned | holdoverLimit | rejected | disabled | setup
  deriving DecidableEq, Repr

/-- The five reference fields of TIMEBASE_SET (R41, R42). -/
structure RefFields where
  divider      : Nat
  phaseOffset  : Int
  lockCount    : Nat
  tolerance    : Nat
  attemptLimit : Nat
  deriving DecidableEq, Repr

/-- The acquisition run: the time of the previous pulse and the count of good intervals (R41). -/
structure AcqRun where
  previous : Nat
  good     : Nat
  deriving DecidableEq, Repr

/-- The cause of a discontinuity (R26). -/
inductive BoundaryCause
  | rate | preset | jam
  deriving DecidableEq, Repr

/-- The boundary event as the timebase hands it on (R26): the new count and, for a discontinuity, its cause and delta. -/
structure BoundaryEvent where
  pc    : Nat
  cause : Option BoundaryCause
  delta : Int
  deriving DecidableEq, Repr

/-- The blocks that act on a boundary (R26). -/
inductive Receiver
  | fpo | windows | groups | anchors | markers | reports | monitor
  deriving DecidableEq, Repr

/-! ### Sources, slots, anchors -/

inductive SourceKind
  | camera | sound | slate
  deriving DecidableEq, Repr

inductive SourceState
  | empty | qualifying | live | faulted | closing
  deriving DecidableEq, Repr

/-- The causes of a SOURCE_STATE report (R82). -/
inductive SourceCause
  | opened | qualified | rejectLimit | slipCoarse | requalify | close | closed
  deriving DecidableEq, Repr

/-- The reject reasons (R69, R76). -/
inductive RejectReason
  | lead | identity | key | order | sourceFaulted
  deriving DecidableEq, Repr

/-- The judgement of a header at its examination (R88). -/
inductive Judgement
  | accepted
  | rejected (reason : RejectReason)
  deriving DecidableEq, Repr

/-- What is written into a stamp area (R97). -/
inductive StampStatus
  | stamped | qualifying | rejected
  deriving DecidableEq, Repr

/-- The stamp flags (R97). -/
structure StampFlags where
  beforeAnchor : Bool
  gap          : Bool
  late         : Bool
  early        : Bool
  deriving DecidableEq, Repr

/-- The fill record of a slot (R84). -/
structure Fill where
  position : Word64
  clap     : Bool
  roll     : Bool
  flags    : StampFlags
  gapSize  : Nat
  deriving DecidableEq, Repr

inductive CompletionKind
  | full | short | closed | faulted
  deriving DecidableEq, Repr

inductive SlotState
  | free | filling | complete | reclaim
  deriving DecidableEq, Repr

/-- A waiting header with its request (R88): the beat as the source wrote it and its address, the judgement, whether the
source was LIVE when the header was examined (R72, log entry 37), the gap fixed at the examination, the arrival, and the
beats of the request after it. -/
structure Waiting where
  request      : Nat
  initiator    : Fin 64
  beat         : Beat
  addr         : Nat
  judgement    : Judgement
  examinedLive : Bool
  gapSize      : Nat
  arrivalPc    : Nat
  arrivalPhase : Nat
  rest         : List WriteBeat
  deriving DecidableEq, Repr

/-- A slot record (R84). -/
structure Slot where
  state   : SlotState
  stamp   : Option Stamp
  beats   : Nat
  pins    : Nat
  waiting : Option Waiting
  fill    : Option Fill
  kind    : Option CompletionKind
  deriving DecidableEq, Repr

inductive AnchorOrigin
  | qualify | slate | command
  deriving DecidableEq, Repr

/-- An anchor (R105). -/
structure Anchor where
  pc       : Nat
  position : Word64
  base     : Nat
  origin   : AnchorOrigin
  deriving DecidableEq, Repr

inductive LateEdge
  | enter | leave | both
  deriving DecidableEq, Repr

/-- The late monitor of a source (R63, R120). -/
structure LateMonitor where
  threshold : Nat
  edge      : LateEdge
  on        : Bool
  late      : Bool
  deriving DecidableEq, Repr

/-- The previous header of a source (R63). -/
structure PreviousHeader where
  position : Word64
  slot     : Nat
  deriving DecidableEq, Repr

/-- A source record (R63), with the source's slots (R84), its anchor list, newest first (R105), and its last stamp
(R182). -/
structure Source where
  state            : SourceState
  kind             : SourceKind
  initiator        : Fin 64
  identity         : Word64
  matchMask        : BitVec 8
  takeKey          : Option Word64
  ringBase         : Nat
  bufferLength     : Nat
  slotCount        : Nat
  speedRatio       : Nat
  latency          : Nat
  sampleRate       : SampleRate
  samplesPerBuffer : Nat
  latencyTicks     : Nat
  qualifyCount     : Nat
  rejectLimit      : Nat
  run              : Nat
  rejects          : Nat
  previous         : Option PreviousHeader
  lateMonitor      : LateMonitor
  group            : Option (Fin 8)
  lastStamp        : Option Stamp
  slots            : List Slot
  anchors          : List Anchor
  deriving DecidableEq, Repr

/-! ### Claps, groups, markers -/

/-- An OPEN clap match (R109); a CLOSED one holds nothing. -/
structure ClapMatch where
  point     : Stamp
  slate     : Fin 32
  remaining : Nat
  expected  : List (Fin 32 × Bool)
  deriving DecidableEq, Repr

/-- The ways a clap match closes with reports (R118). -/
inductive ClapClosing
  | windowEnd | secondClap | timeChange
  deriving DecidableEq, Repr

inductive SlipOutcome
  | coarse | adopted | rejected
  deriving DecidableEq, Repr

inductive GroupState
  | idle | armed | rolling | stopping
  deriving DecidableEq, Repr

inductive RollMode
  | atTime | onSlate | now
  deriving DecidableEq, Repr

/-- The causes of a TAKE_STATE report (R127). -/
inductive TakeCause
  | armed | rolled | lateRoll | stopBoundary | ended | tailExpired | abandoned | disarmed
  deriving DecidableEq, Repr

/-- The most recently ended take of a group (R123). -/
structure EndedTake where
  take      : Nat
  rollCount : Nat
  endCount  : Nat
  deriving DecidableEq, Repr

/-- A group record (R123), less its members, which the source records name. -/
structure Group where
  state         : GroupState
  take          : Nat
  rollMode      : RollMode
  requestedRoll : Nat
  rollDue       : Bool
  rollCount     : Nat
  stopCount     : Option Nat
  stopCommand   : Option (Fin 16)
  passed        : List (Fin 32)
  awaited       : List (Fin 32)
  tail          : Nat
  ended         : Option EndedTake
  deriving DecidableEq, Repr

/-- The marker triggers (R134). -/
inductive Trigger
  | none
  | command
  | takeRoll (group : Fin 8)
  | takeEnd (group : Fin 8)
  | clap (group : Fin 8)
  | frame
  deriving DecidableEq, Repr

/-- A RUNNING train (R134); `partEnd` is the tick at which the part under way ends. -/
structure Train where
  width   : Nat
  count   : Nat
  pulse   : Nat
  high    : Bool
  partEnd : Nat
  deriving DecidableEq, Repr

/-- A marker record (R134); no train is the train IDLE. -/
structure Marker where
  trigger : Trigger
  width   : Nat
  count   : Nat
  train   : Option Train
  deriving DecidableEq, Repr

/-! ### Windows -/

inductive WindowMode
  | liveDelay | cueStill | cueRoll
  deriving DecidableEq, Repr

/-- An OPEN window (R138); a CLOSED one holds nothing. `bound` is the binding BOUND, its negation LOST. `delay` has a
meaning in LIVE_DELAY only, and `cue` is the stamp of the last WINDOW_OPEN or WINDOW_CUE in a cue mode (log entry 41). -/
structure Window where
  base         : Nat
  length       : Nat
  source       : Fin 32
  bound        : Bool
  speedRatio   : Nat
  mode         : WindowMode
  delay        : Nat
  cue          : Option Stamp
  target       : Stamp
  holdLimit    : Nat
  slugBase     : Nat
  slugReported : Option Stamp
  deriving DecidableEq, Repr

/-- The causes of a SLUG_SERVED report (R147). -/
inductive SlugCause
  | notLive | reclaimed | noSlot
  deriving DecidableEq, Repr

/-- The outcome of a WINDOW read (R147). -/
inductive ReadOutcome
  | slug (cause : SlugCause)
  | redirect (slot : Nat)
  | hold (slot : Nat)
  | listFull
  deriving DecidableEq, Repr

/-- An entry of the held-read list (R151), with the number of its request. -/
structure Held where
  request   : Nat
  window    : Fin 8
  initiator : Fin 64
  offset    : Nat
  beats     : Nat
  target    : Stamp
  source    : Fin 32
  slot      : Nat
  deadline  : Nat
  deriving DecidableEq, Repr

/-- An entry of the redirect table (R148). -/
structure Redirect where
  tag       : Nat
  window    : Fin 8
  initiator : Fin 64
  source    : Fin 32
  slot      : Nat
  deriving DecidableEq, Repr

/-! ### Command unit and report writer -/

/-- A beat of a CONTROL WRITE handed to the command unit (R6, R159), with its offset in the control window. -/
structure ControlBeat where
  offset  : Nat
  data    : Beat
  enables : Enables
  deriving DecidableEq, Repr

/-- The state of a command slot (R163). -/
inductive CommandSlot
  | idle
  | pending (record : Beat) (collided : Bool)
  | done
  | refused
  deriving DecidableEq, Repr

/-- The result codes of a completed command (R165). -/
inductive ResultCode
  | done | abortedRestart | refusedState | refusedRange | refusedOverlap | refusedFull | refusedUnknown
  deriving DecidableEq, Repr

/-- What the owner of a command answers when it is taken: it completes with a result, or it goes on (R163). -/
inductive CommandResult
  | done (r1 r2 : Nat)
  | refused (code : ResultCode)
  | goesOn
  deriving DecidableEq, Repr

/-- The report kinds (chapter 11). -/
inductive ReportKind
  | start | lockState | referenceRejected | phaseExcursion | jam | sourceState | headerReject | slip
  | clapUnmatched | lateChange | takeState | heldTimeout | slugServed | heldListFull | commandDone
  | settingRefused | storeError
  deriving DecidableEq, Repr

/-- The index entry kinds (R100). -/
inductive EntryKind
  | media | slate | clap | takeStart | takeEnd | memberLost
  deriving DecidableEq, Repr

/-- The contents of an index entry, less its sequence (R100). -/
structure Entry where
  kind        : EntryKind
  source      : Nat
  group       : Option (Fin 8)
  completion  : Option CompletionKind
  take        : Nat
  flags       : Nat
  stamp       : Stamp
  gapSize     : Nat
  position    : Word64
  slotAddress : Nat
  deriving DecidableEq, Repr

/-- Where the index ring stands (R98). -/
structure IndexRing where
  base     : Nat
  capacity : Nat
  deriving DecidableEq, Repr

/-- The seven event flags (R180); REPORT_PENDING follows the ring and is not held. -/
structure EventFlags where
  overrun     : Bool
  lockChange  : Bool
  sourceFault : Bool
  slip        : Bool
  takeChange  : Bool
  window      : Bool
  commandDone : Bool
  deriving DecidableEq, Repr

end Sys2Proof.Machine
end

