-- ==== Sys2Proof/Machine/Formats.lean ====
section
/-! DEFINITION. The codes (R185) and byte layouts (chapter 11, R185 to R188) of every record the bridge writes, of the
header a source writes, and of its stamp area; the start-up writes (R19, R182); the records' values at a start. -/

namespace Sys2Proof.Machine

/-! ### Codes (table of R185) -/

def SourceKind.code : SourceKind → Nat
  | .camera => 1 | .sound => 2 | .slate => 3

def SourceState.code : SourceState → Nat
  | .empty => 0 | .qualifying => 1 | .live => 2 | .faulted => 3 | .closing => 4

def SourceCause.code : SourceCause → Nat
  | .opened => 1 | .qualified => 2 | .rejectLimit => 3 | .slipCoarse => 4 | .requalify => 5 | .close => 6 | .closed => 7

def LockState.code : LockState → Nat
  | .free => 0 | .acquire => 1 | .locked => 2 | .holdover => 3

def LockCause.code : LockCause → Nat
  | .pulse => 1 | .lock => 2 | .missingPulse => 3 | .excursion => 4 | .returned => 5 | .holdoverLimit => 6
  | .rejected => 7 | .disabled => 8 | .setup => 9

def JamMode.code : JamMode → Nat
  | .off => 0 | .once => 1 | .continuous => 2

def StampStatus.code : StampStatus → Nat
  | .stamped => 1 | .qualifying => 2 | .rejected => 3

def RejectReason.code : RejectReason → Nat
  | .lead => 1 | .identity => 2 | .key => 3 | .order => 4 | .sourceFaulted => 5

def AnchorOrigin.code : AnchorOrigin → Nat
  | .qualify => 1 | .slate => 2 | .command => 3

def SlipOutcome.code : SlipOutcome → Nat
  | .coarse => 1 | .adopted => 2 | .rejected => 3

def ClapClosing.code : ClapClosing → Nat
  | .windowEnd => 2 | .secondClap => 3 | .timeChange => 4

def LateEdge.code : LateEdge → Nat
  | .enter => 1 | .leave => 2 | .both => 3

def GroupState.code : GroupState → Nat
  | .idle => 0 | .armed => 1 | .rolling => 2 | .stopping => 3

def TakeCause.code : TakeCause → Nat
  | .armed => 1 | .rolled => 2 | .lateRoll => 3 | .stopBoundary => 4 | .ended => 5 | .tailExpired => 6
  | .abandoned => 7 | .disarmed => 8

def WindowMode.code : WindowMode → Nat
  | .liveDelay => 1 | .cueStill => 2 | .cueRoll => 3

def SlugCause.code : SlugCause → Nat
  | .notLive => 1 | .reclaimed => 2 | .noSlot => 3

def CompletionKind.code : CompletionKind → Nat
  | .full => 1 | .short => 2 | .closed => 3 | .faulted => 4

def StartKind.code : StartKind → Nat
  | .powerOn => 1 | .resetLine => 2 | .restart => 3

def ReportKind.code : ReportKind → Nat
  | .start => 1 | .lockState => 2 | .referenceRejected => 3 | .phaseExcursion => 4 | .jam => 5 | .sourceState => 6
  | .headerReject => 7 | .slip => 8 | .clapUnmatched => 9 | .lateChange => 10 | .takeState => 11 | .heldTimeout => 12
  | .slugServed => 13 | .heldListFull => 14 | .commandDone => 15 | .settingRefused => 16 | .storeError => 17

def EntryKind.code : EntryKind → Nat
  | .media => 1 | .slate => 2 | .clap => 3 | .takeStart => 4 | .takeEnd => 5 | .memberLost => 6

def CommandSlot.code : CommandSlot → Nat
  | .idle => 0 | .pending _ _ => 1 | .done => 2 | .refused => 3

def ResultCode.code : ResultCode → Nat
  | .done => 1 | .abortedRestart => 2 | .refusedState => 3 | .refusedRange => 4 | .refusedOverlap => 5
  | .refusedFull => 6 | .refusedUnknown => 7

/-- The causes of a HELD_TIMEOUT report (R156): DEADLINE 1, NO_ENTRY 2. -/
def heldDeadlineCode : Nat := 1
def heldNoEntryCode : Nat := 2

/-- The events of a JAM report: DONE 1, DEFERRED 2, CORRECTION 3. -/
def jamDoneCode : Nat := 1
def jamDeferredCode : Nat := 2
def jamCorrectionCode : Nat := 3

/-! ### Places -/

/-- The control window is 1 MiB long (R4). -/
def controlLength : Nat := 1048576
/-- The end of the 40-bit address space. -/
def addressEnd : Nat := 2 ^ 40
def settingsOffset : Nat := 0x1000
def commandOffset (n : Nat) : Nat := 0x2000 + n * 64
def statusRecordOffset (n : Nat) : Nat := 0x2800 + n * 64
def consumerOffset : Nat := 0x3000
/-- R175: the place of the report record of a sequence in the ring of 15,360 records. -/
def reportOffset (sequence : Nat) : Nat := 0x10000 + sequence % 15360 * 64
/-- The control window base of a strap value (R4). -/
def controlBaseOf (cwb : BitVec 4) : Nat := cwb.toNat * 2 ^ 30

/-- Source beats are beats 0..31, group beats 32..39, window beats 40..47 of the status block (R182). -/
def sourcePart (n : Fin 32) : Nat := n.val
def groupPart (g : Fin 8) : Nat := 32 + g.val
def windowPart (w : Fin 8) : Nat := 40 + w.val
def timePart : Nat := 48
def attentionPart : Nat := 49
def indexPart : Nat := 50
def headerPart : Nat := 63

/-! ### The header and its stamp area (chapter 11, section 11.2) -/

/-- The lead pattern A6 59 A6 59 5A 95 5A 95, byte 0 least significant. -/
def leadPattern : Word64 := 0x955A955A59A659A6#64

def headerLead (b : Beat) : Word64 := field64 b 0
def headerIdentity (b : Beat) : Word64 := field64 b 8
def headerPosition (b : Beat) : Word64 := field64 b 16
def headerClap (b : Beat) : Bool := fieldBit b 24 0
def headerRoll (b : Beat) : Bool := fieldBit b 24 1
def headerClapOffset (b : Beat) : Nat := field b 28 4
def headerKey (b : Beat) : Word64 := field64 b 32

/-- Bits 0..3 of a flags byte: BEFORE_ANCHOR, GAP, LATE, EARLY. -/
def StampFlags.toNat (f : StampFlags) : Nat :=
  flagNat f.beforeAnchor + 2 * flagNat f.gap + 4 * flagNat f.late + 8 * flagNat f.early

/-- The 16 bytes at header offsets 40 to 55. -/
def stampAreaMask : Beat := BitVec.ofNat 512 (2 ^ 128 - 1) <<< 320

/-- R186: the beat with all 16 bytes of its stamp area replaced, the other 48 as the source wrote them. -/
def writeStampArea (b : Beat) (status reason flags frac count : Nat) : Beat :=
  (b &&& ~~~stampAreaMask) |||
    pack [(40, 1, status), (41, 1, reason), (42, 1, flags), (44, 4, frac), (48, 8, count)]

/-- The stamp area of a stamped header (R97). -/
def stampedBeat (b : Beat) (st : Stamp) (f : StampFlags) : Beat :=
  writeStampArea b StampStatus.stamped.code 0 f.toNat st.frac st.count

/-- The stamp area of a QUALIFYING header (R97). -/
def qualifyingBeat (b : Beat) : Beat :=
  writeStampArea b StampStatus.qualifying.code 0 0 0 0

/-- The stamp area of a REJECTED header (R97). -/
def rejectedBeat (b : Beat) (r : RejectReason) : Beat :=
  writeStampArea b StampStatus.rejected.code r.code 0 0 0

/-! ### Records at a start -/

def LateMonitor.initial : LateMonitor :=
  { threshold := 0, edge := .both, on := false, late := false }

/-- A slot record given out or returned (R85): FREE, with nothing. -/
def Slot.free : Slot :=
  { state := .free, stamp := none, beats := 0, pins := 0, waiting := none, fill := none, kind := none }

/-- An EMPTY record: its other fields are without meaning (R63); log entry 31. -/
def Source.empty : Source :=
  { state := .empty, kind := .camera, initiator := 0, identity := 0, matchMask := 0, takeKey := none, ringBase := 0,
    bufferLength := 0, slotCount := 0, speedRatio := 0, latency := 0, sampleRate := .k48, samplesPerBuffer := 0,
    latencyTicks := 0, qualifyCount := 0, rejectLimit := 0, run := 0, rejects := 0, previous := none,
    lateMonitor := LateMonitor.initial, group := none, lastStamp := none, slots := [], anchors := [] }

/-- A group at a start (R133): IDLE, take number 0, no ended take. -/
def Group.initial : Group :=
  { state := .idle, take := 0, rollMode := .atTime, requestedRoll := 0, rollDue := false, rollCount := 0,
    stopCount := none, stopCommand := none, passed := [], awaited := [], tail := 0, ended := none }

/-- A marker record at a start (R137). -/
def Marker.initial : Marker :=
  { trigger := .none, width := 1, count := 1, train := none }

def EventFlags.clear : EventFlags :=
  { overrun := false, lockChange := false, sourceFault := false, slip := false, takeChange := false, window := false,
    commandDone := false }

/-- The defaults of S0 to S6 (R160, R187). -/
def settingsDefaults : Vector (BitVec 32) 7 :=
  #v[0x00000000#32, 0x0000FFFF#32, 0x00000103#32, 0x000005DC#32, 0x00001418#32, 0x00000C08#32, 0x00000032#32]

/-- The reference fields at a start (R57). -/
def RefFields.initial : RefFields :=
  { divider := 1, phaseOffset := 0, lockCount := 8, tolerance := 270, attemptLimit := 4 }

/-! ### What the bridge writes (chapter 11, section 11.4) -/

def reportBeat (sequence : Nat) (kind : ReportKind) (subject pc d1 d2 : Nat) : Beat :=
  pack [(0, 8, sequence), (8, 2, kind.code), (10, 2, subject), (16, 8, pc), (24, 8, d1), (32, 8, d2)]

/-- The four bytes of a label: hours, minutes, seconds, frames. -/
def Label.word (l : Label) : Nat :=
  byteWord [l.hours, l.minutes, l.seconds, l.frames]

/-- DROP_LABEL, bit 11 of an entry's flags: set when the rate is code 4 or 9 (R188). -/
def dropLabelFlag (r : Rate) : Nat :=
  if r.isDrop then 2048 else 0

/-- An index entry; label and day are those of the stamp's count at the rate in effect (R100, R188). -/
def entryBeat (r : Rate) (sequence : Nat) (e : Entry) : Beat :=
  pack [(0, 8, sequence), (8, 1, e.kind.code), (9, 1, e.source),
    (10, 1, match e.group with | some g => g.val | none => 255),
    (11, 1, match e.completion with | some k => k.code | none => 0),
    (12, 2, e.take), (14, 2, e.flags + dropLabelFlag r), (16, 8, e.stamp.count), (24, 4, e.stamp.frac),
    (28, 4, (labelOf r (frameOfDay r e.stamp.count)).word), (32, 2, dayOf r e.stamp.count),
    (36, 4, e.gapSize), (40, 8, e.position.toNat), (48, 8, e.slotAddress)]

def statusRecordBeat (state result code collided tag pc r1 r2 : Nat) : Beat :=
  pack [(0, 1, state), (1, 1, result), (2, 1, code), (3, 1, collided), (4, 4, tag), (8, 8, pc), (16, 8, r1), (24, 8, r2)]

/-- A source beat; an EMPTY source shows every field as 0, and an absent stamp gives 0 in offsets 3 to 15 (R188). -/
def sourceBeat (s : Source) : Beat :=
  if s.state = .empty then 0
  else
    pack ([(0, 1, s.state.code), (1, 1, flagNat s.lateMonitor.late), (2, 1, s.rejects)] ++
      match s.lastStamp with
      | some st => [(3, 1, 1), (4, 4, st.frac), (8, 8, st.count)]
      | none    => [])

def groupBeat (g : Group) : Beat :=
  pack [(0, 1, g.state.code), (2, 2, g.take)]

/-- A window beat; a CLOSED window shows 0 in every field (R188). -/
def windowBeat : Option Window → Beat
  | none   => 0
  | some w => pack [(0, 1, 1), (1, 1, flagNat (!w.bound)), (2, 1, w.mode.code), (3, 1, w.target.frac), (8, 8, w.target.count)]

def timeBeat (r : Rate) (pc : Nat) (lock : LockState) (refEnable : Bool) (jam : JamMode) : Beat :=
  pack [(0, 8, pc), (8, 2, dayOf r pc), (10, 4, (labelOf r (frameOfDay r pc)).word), (14, 1, r.val), (15, 1, lock.code),
    (16, 1, flagNat refEnable), (17, 1, jam.code)]

def attentionBeat (flags producer consumer : Nat) : Beat :=
  pack [(0, 1, flags), (8, 8, producer), (16, 8, consumer)]

/-- The index beat; with no ring set, base present, base and capacity are 0 (R188). -/
def indexBeat (ring : Option IndexRing) (sequence : Nat) : Beat :=
  pack ((match ring with
    | some r => [(0, 1, 1), (8, 8, r.base), (16, 4, r.capacity)]
    | none   => []) ++ [(24, 8, sequence)])

/-- The header beat: READY marker 52 45 41 44 59 00 82 00, last start kind, strap value, control window base. -/
def headerBeat (kind : StartKind) (cwb : BitVec 4) : Beat :=
  pack [(0, 8, 0x0082005944414552), (8, 1, kind.code), (9, 1, cwb.toNat), (16, 8, controlBaseOf cwb)]

/-- A beat written with all its byte enables set (R3). -/
def fullBeat (b : Beat) : WriteBeat :=
  { data := b, enables := allEnables }

/-- A settings word in its place in the settings beat, with a mask of zero (R161, R187). -/
def settingField (n : Nat) (v : BitVec 32) : Nat × Nat × Nat :=
  (8 * n, 8, v.toNat)

/-! ### The start-up writes (R19, R182) -/

/-- The beat `n` of the status block as it stands at a start. -/
def startStatusBeat (kind : StartKind) (cwb : BitVec 4) (n : Nat) : Beat :=
  if n = timePart then timeBeat 1 0 .free false .off
  else if n = headerPart then headerBeat kind cwb
  else 0

/-- A start-up write at an offset of the control window. -/
def startUpWrite (cwb : BitVec 4) (now offset : Nat) (beats : List Beat) : OwnWrite :=
  { kind := .startUp offset, addr := controlBaseOf cwb + offset, beats := beats.map fullBeat, joined := now }

/-- R19 step 2: 4 writes of IDLE status records, 1 of the settings defaults, 16 of the status block, in this order. -/
def startUpWrites (kind : StartKind) (cwb : BitVec 4) (now : Nat) : List OwnWrite :=
  ((List.range 4).map fun i => startUpWrite cwb now (statusRecordOffset (4 * i)) [0, 0, 0, 0]) ++
  [startUpWrite cwb now settingsOffset
    [pack ((List.range 7).map fun n => settingField n (settingsDefaults.toList.getD n 0))]] ++
  ((List.range 16).map fun i => startUpWrite cwb now (256 * i)
    ((List.range 4).map fun j => startStatusBeat kind cwb (4 * i + j)))

end Sys2Proof.Machine
end

