-- ==== Sys2Proof/Machine/Operands.lean ====
section
/-! DEFINITION. Reading the command records and settings words that software writes (R160, R161, R185, R187). A command
record is read at the offsets of chapter 11; bytes a command does not use are not read. Each reader answers `none`
where an argument is a code, flag or number outside the range the layout or the owning rule gives it. -/

namespace Sys2Proof.Machine

/-- The command code of a record (chapter 11, section 11.3). -/
def commandCode (rec : Beat) : Nat := field rec 0 1

/-- The tag of a record: software's own number. -/
def commandTag (rec : Beat) : Nat := field rec 4 4

/-- A flag held in a whole byte of a command: 0 or 1, anything else is out of range (R185). -/
def flagField (rec : Beat) (off : Nat) : Option Bool :=
  match field rec off 1 with
  | 0 => some false
  | 1 => some true
  | _ => none

/-- The number at an offset if it lies in `lo..hi`. -/
def rangeField (rec : Beat) (off size lo hi : Nat) : Option Nat :=
  let v := field rec off size
  if lo ≤ v ∧ v ≤ hi then some v else none

/-- The number at an offset as a source, group, window or line number below `n`. -/
def finField (n : Nat) (rec : Beat) (off : Nat) : Option (Fin n) :=
  let v := field rec off 1
  if h : v < n then some ⟨v, h⟩ else none

/-- An address at an offset: a multiple of `align` within the 40-bit space (R187). -/
def addressField (rec : Beat) (off align : Nat) : Option Nat :=
  let v := field rec off 8
  if v < addressEnd ∧ v % align = 0 then some v else none

/-- A picture count at an offset, below the picture-count range (R187). -/
def countField (r : Rate) (rec : Beat) (off : Nat) : Option Nat :=
  let v := field rec off 8
  if v < r.range then some v else none

def kindOfCode : Nat → Option SourceKind
  | 1 => some .camera
  | 2 => some .sound
  | 3 => some .slate
  | _ => none

def sampleRateOfCode : Nat → Option SampleRate
  | 0 => some .k48
  | 1 => some .k96
  | 2 => some .k192
  | _ => none

def jamModeOfCode : Nat → Option JamMode
  | 0 => some .off
  | 1 => some .once
  | 2 => some .continuous
  | _ => none

def edgeOfCode : Nat → Option LateEdge
  | 1 => some .enter
  | 2 => some .leave
  | 3 => some .both
  | _ => none

def rollModeOfCode : Nat → Option RollMode
  | 1 => some .atTime
  | 2 => some .onSlate
  | 3 => some .now
  | _ => none

def windowModeOfCode : Nat → Option WindowMode
  | 1 => some .liveDelay
  | 2 => some .cueStill
  | 3 => some .cueRoll
  | _ => none

/-- A trigger from its code and the byte that names its group, read only for the three group triggers. -/
def triggerOfCode (code group : Nat) : Option Trigger :=
  let withGroup (t : Fin 8 → Trigger) : Option Trigger := if h : group < 8 then some (t ⟨group, h⟩) else none
  match code with
  | 0 => some .none
  | 1 => some .command
  | 2 => withGroup .takeRoll
  | 3 => withGroup .takeEnd
  | 4 => withGroup .clap
  | 5 => some .frame
  | _ => none

/-! ### Arguments, command by command -/

/-- TIMEBASE_SET (R168, check 1): the rate code and the five reference fields, in range, with D = 2 refused at rate
code 0 (R42). -/
def timebaseSetArgs (rec : Beat) : Option (Rate × RefFields) := do
  let rate ← rateOfCode (field rec 8 1)
  let divider ← rangeField rec 9 1 1 2
  let lockCount ← rangeField rec 12 1 2 63
  let limit ← rangeField rec 13 1 1 15
  let tolerance ← rangeField rec 14 2 27 27000
  if divider = 2 ∧ rate.val = 0 then none
  else some (rate, { divider, phaseOffset := fieldInt rec 10 2, lockCount, tolerance, attemptLimit := limit })

/-- TIME_PRESET (R37): day and label, valid at the rate with the drop flag agreeing (R33). -/
def timePresetArgs (r : Rate) (rec : Beat) : Option (Nat × Label) := do
  let drop ← flagField rec 14
  let l : Label := { hours := field rec 10 1, minutes := field rec 11 1, seconds := field rec 12 1, frames := field rec 13 1 }
  if l.validWithFlag r drop then some (field rec 8 2, l) else none

/-- JAM_MODE (R62, R169). -/
def jamModeArgs (rec : Beat) : Option (JamMode × Nat) := do
  let mode ← jamModeOfCode (field rec 8 1)
  let length ← rangeField rec 9 1 2 15
  some (mode, length)

/-- SOURCE_OPEN (R65, R66 check 1, R67): the record a passing command gives its source, less slots; the parameters of
the other kinds are not read. A qualify count of 0 selects 16, a reject limit of 0 selects 3. -/
def sourceOpenArgs (rec : Beat) : Option (Fin 32 × Source) := do
  let n ← finField 32 rec 8
  let kind ← kindOfCode (field rec 9 1)
  let initiator ← finField 64 rec 10
  let keyPresent ← flagField rec 12
  let limit ← rangeField rec 14 1 0 15
  let ringBase ← addressField rec 32 64
  let bufferLength ← match kind with
    | .slate => rangeField rec 40 4 1 1
    | _      => rangeField rec 40 4 1 16777215
  let slotCount ← rangeField rec 44 1 2 64
  let ratio ← match kind with
    | .camera => rangeField rec 45 1 1 8
    | _       => some 1
  let sampleRate ← match kind with
    | .sound => sampleRateOfCode (field rec 45 1)
    | _      => some .k48
  let latency ← match kind with
    | .slate => some 0
    | _      => rangeField rec 46 1 0 15
  let samples ← match kind with
    | .sound => rangeField rec 48 2 1 65535
    | _      => some 0
  let ticks ← match kind with
    | .slate => rangeField rec 52 4 0 1048575
    | _      => some 0
  if addressEnd < ringBase + slotCount * bufferLength * 64 then none
  else
    let qualify := field rec 13 1
    some (n,
      { Source.empty with
        state := .qualifying, kind, initiator, identity := field64 rec 16, matchMask := rec.extractLsb' 88 8,
        takeKey := if keyPresent then some (field64 rec 24) else none,
        ringBase, bufferLength, slotCount, speedRatio := ratio, latency, sampleRate, samplesPerBuffer := samples,
        latencyTicks := ticks, qualifyCount := if qualify = 0 then 16 else qualify,
        rejectLimit := if limit = 0 then 3 else limit,
        slots := List.replicate slotCount Slot.free })

/-- LATE_MONITOR (R121, check 1). -/
def lateMonitorArgs (rec : Beat) : Option (Fin 32 × Nat × LateEdge × Bool) := do
  let n ← finField 32 rec 8
  let threshold ← rangeField rec 9 1 0 15
  let edge ← edgeOfCode (field rec 10 1)
  let on ← flagField rec 11
  some (n, threshold, edge, on)

/-- ANCHOR_SET (R107, check 1). -/
def anchorSetArgs (r : Rate) (rec : Beat) : Option (Fin 32 × Anchor) := do
  let n ← finField 32 rec 8
  let base ← rangeField rec 9 1 0 4
  let pc ← countField r rec 16
  some (n, { pc, position := field64 rec 24, base, origin := .command })

/-- INDEX_SET (R98, check 1). -/
def indexSetArgs (rec : Beat) : Option IndexRing := do
  let base ← addressField rec 16 64
  let capacity ← rangeField rec 8 4 1024 1048576
  if addressEnd < base + capacity * 64 then none else some { base := base, capacity := capacity }

/-- GROUP_SET (R124, check 1): the group and the member set, bit n for source n. -/
def groupSetArgs (rec : Beat) : Option (Fin 8 × List (Fin 32)) := do
  let g ← finField 8 rec 8
  some (g, (List.finRange 32).filter fun n => fieldBit rec 12 n.val)

/-- TAKE_ARM (R125, check 1): the roll count is read for AT_TIME only. -/
def takeArmArgs (r : Rate) (rec : Beat) : Option (Fin 8 × RollMode × Nat) := do
  let g ← finField 8 rec 8
  let mode ← rollModeOfCode (field rec 9 1)
  match mode with
  | .atTime => (countField r rec 16).map fun c => (g, mode, c)
  | _       => some (g, mode, 0)

/-- TAKE_STOP (R128, check 1): a stop count, or none for NEXT; the count is read only with NEXT clear. -/
def takeStopArgs (r : Rate) (rec : Beat) : Option (Fin 8 × Option Nat) := do
  let g ← finField 8 rec 8
  let next ← flagField rec 9
  if next then some (g, none) else (countField r rec 16).map fun c => (g, some c)

/-- What a window aims at: a mode with its delay or its cue stamp (R140, R142). A delay is read only in LIVE_DELAY, a
cue count and sub-index only in the cue modes. -/
structure WindowAim where
  mode  : WindowMode
  delay : Nat
  cue   : Option Stamp
  deriving DecidableEq, Repr

/-- R140 to R142: the mode of a window with its delay or its cue stamp. R138 gives the delay in LIVE_DELAY only and the cue
stamp in the cue modes only: the field that the mode does not read is 0 or absent here, and WINDOW_OPEN leaves it so
(DESIGN CHOICE, log entry 41). -/
def windowAim (r : Rate) (rec : Beat) : Option WindowAim := do
  let mode ← windowModeOfCode (field rec 10 1)
  match mode with
  | .liveDelay => some { mode, delay := field rec 11 1, cue := none }
  | _          => (countField r rec 32).map fun c => { mode, delay := 0, cue := some { count := c, frac := field rec 14 1 } }

/-- The arguments of WINDOW_OPEN (R140). -/
structure WindowOpenArgs where
  window    : Fin 8
  source    : Fin 32
  aim       : WindowAim
  holdLimit : Nat
  base      : Nat
  slugBase  : Nat
  deriving DecidableEq, Repr

/-- WINDOW_OPEN (R140, check 1). -/
def windowOpenArgs (r : Rate) (rec : Beat) : Option WindowOpenArgs := do
  let window ← finField 8 rec 8
  let source ← finField 32 rec 9
  let aim ← windowAim r rec
  let holdLimit ← rangeField rec 12 2 1 65535
  let base ← addressField rec 16 4096
  let slugBase ← addressField rec 24 64
  some { window := window, source := source, aim := aim, holdLimit := holdLimit, base := base, slugBase := slugBase }

/-- WINDOW_CUE (R142, check 1). -/
def windowCueArgs (r : Rate) (rec : Beat) : Option (Fin 8 × WindowAim) := do
  let window ← finField 8 rec 8
  let aim ← windowAim r rec
  some (window, aim)

/-- The three parts of a MARKER command (R136): bits 0, 1 and 2 of its parts byte; bits 3 to 7 are not read. -/
def markerHasSet (rec : Beat) : Bool := fieldBit rec 9 0
def markerHasFire (rec : Beat) : Bool := fieldBit rec 9 1
def markerHasStop (rec : Beat) : Bool := fieldBit rec 9 2

/-- The SET part of MARKER: trigger, width and count (R134, R136). -/
def markerSetArgs (rec : Beat) : Option (Trigger × Nat × Nat) := do
  let trigger ← triggerOfCode (field rec 10 1) (field rec 11 1)
  let count ← rangeField rec 12 1 1 7
  let width ← rangeField rec 14 2 1 250
  some (trigger, width, count)

/-! ### Settings words (R160, R187) -/

/-- Bits `lo` to `lo + n - 1` of a settings value. -/
def settingBits (v : BitVec 32) (lo n : Nat) : Nat :=
  (v.extractLsb' lo n).toNat

/-- R160: whether every field of settings word `n` is in range and every bit outside its fields is zero. -/
def settingInRange (n : Fin 7) (v : BitVec 32) : Bool :=
  match n.val with
  | 0 => settingBits v 8 24 == 0
  | 1 => settingBits v 16 16 == 0
  | 2 => settingBits v 3 1 == 0 && decide (settingBits v 4 2 ≤ 1) && settingBits v 6 2 == 0 && settingBits v 9 23 == 0
  | 3 => settingBits v 16 16 == 0
  | 4 => decide (1 ≤ settingBits v 0 8) && decide (settingBits v 0 8 ≤ 32) && decide (1 ≤ settingBits v 8 8)
          && settingBits v 16 16 == 0
  | 5 => decide (1 ≤ settingBits v 0 8) && decide (settingBits v 0 8 ≤ 63) && decide (1 ≤ settingBits v 8 8)
          && decide (settingBits v 8 8 ≤ 63) && settingBits v 16 16 == 0
  | _ => settingBits v 3 1 == 0 && settingBits v 7 1 == 0 && decide (settingBits v 8 2 ≤ 1) && settingBits v 10 22 == 0

/-- R161 step 1: each bit whose mask bit is set is replaced by the value written, the others are kept. -/
def mergeSetting (current value mask : BitVec 32) : BitVec 32 :=
  (current &&& ~~~mask) ||| (value &&& mask)

/-- The value and the mask of settings word `n` in a settings beat (R187). -/
def settingWritten (data : Beat) (n : Fin 7) : BitVec 32 × BitVec 32 :=
  (data.extractLsb' (64 * n.val) 32, data.extractLsb' (64 * n.val + 32) 32)

/-- How many of the 8 bytes of settings word `n` are enabled: none, some, or all. -/
def wordEnabled (enables : Enables) (n : Nat) : Nat :=
  ((List.range 8).filter fun i => enables.getLsbD (8 * n + i)).length

end Sys2Proof.Machine
end

