-- ==== Sys2Proof/Machine/State.lean ====
section
/-! DEFINITION. The state of the bridge (INVENTORY.md, "State"): every register, queue, table, counter, mode and line
the manual names, as plain data, with the queue of commands that wait; the reasons a step could stop; and the state
right after a start. -/

namespace Sys2Proof.Machine

/-- The reasons the machine could stop with a fault. There are none: the manual names no event that stops the bridge.
A FAULT response, a refused command, a rejected header and a failed own write are effects on the state. -/
inductive Fault
  deriving DecidableEq, Repr

/-- The reasons a command could be refused by the model. -/
inductive Refusal
  /-- Raised by `exec` for a command that has no meaning yet; safe. No arm raises it: every row has its meaning. -/
  | notModelled (mnemonic : String)
  deriving DecidableEq, Repr

/-- The state of the bridge. -/
structure State where
  /-- The commands that wait, first in, first out. -/
  pending : List Instr
  /-- The level of RST_N (R18). -/
  rstn : Bool
  /-- The CWB straps as sampled at the last start by power-on or reset line (R4, R19). -/
  cwb : BitVec 4
  /-- The last start kind, as the header beat of the status block shows it (R182). -/
  startKind : StartKind
  /-- Whether start-up has finished and the system link is open (R2, R19). -/
  linkOpen : Bool
  /-- Start-up writes answered FAULT, whose records are produced when the link opens (R19). -/
  startupFaults : List StartupFault
  /-- The time clock, in ticks of 27 MHz. -/
  now : Nat
  /-- The requests presented and left presented, in the order of their presenting (R2). -/
  presented : List Request
  /-- The initiators whose presented WINDOW reads wait for a redirect entry, the one that began waiting first at the front
  (R146), as it stood before the latest event (log entry 29). -/
  waiting : List (Fin 64)
  /-- The number the next request or store-link transaction receives (log entry 24). -/
  nextId : Nat
  /-- The requests taken and not yet answered, in the order of their taking (R1). -/
  outstanding : List Taken
  /-- One park flag per initiator, with the number of the parked request (R10). -/
  parks : Vector (Option Nat) 64
  /-- The responses returned in the latest step (R1). -/
  returned : List Returned
  /-- The forwarded stream, oldest first (R12). -/
  stream : List Transaction
  /-- The own-write queue, oldest first (R14). -/
  ownQueue : List OwnWrite
  /-- The offered own writes, oldest first (R14). -/
  offered : List OwnWrite
  /-- Issued transactions of the forwarded stream awaiting their responses (R3). -/
  inFlight : List Transaction
  /-- Issued own writes awaiting their responses (R17). -/
  inFlightOwn : List OwnIssued
  /-- The rate in effect (R21). -/
  rate : Rate
  /-- The pending rate (R21, R29). -/
  pendingRate : Option Rate
  /-- The picture count (R21). -/
  pc : Nat
  /-- The phase counter, in ticks (R23). -/
  phase : Nat
  /-- The pending preset (R37). -/
  preset : Option Preset
  /-- The jam mode (R62). -/
  jamMode : JamMode
  /-- The jam run length (R62). -/
  jamLength : Nat
  /-- The current run of timecode words (R58). -/
  jamRun : Option JamRun
  /-- The deferral mark (R61). -/
  deferral : Bool
  /-- The level of FPO (R27). -/
  fpo : Bool
  /-- The lock state (R41). -/
  lock : LockState
  /-- The reference enable (R41). -/
  refEnable : Bool
  /-- The five reference fields (R41, R42). -/
  ref : RefFields
  /-- The pending reference fields (R42). -/
  pendingRef : Option RefFields
  /-- The attempt counter (R41, R47). -/
  attempts : Nat
  /-- The acquisition run (R41, R45). -/
  acqRun : Option AcqRun
  /-- The holdover mark (R41). -/
  holdMark : Bool
  /-- The time of the last used pulse (R41). -/
  lastUsed : Option Nat
  /-- The pulse parity: set for "used next", clear for "unused next" (R41). -/
  usedNext : Bool
  /-- The scheduled boundaries, in the order of their instants (R43). -/
  scheduled : List Nat
  /-- The excursion latch: set for EXCURSION, clear for CLEAN (R41, R49). -/
  excursion : Bool
  /-- The strict count (R50). -/
  strict : Nat
  /-- The holdover count (R51). -/
  holdCount : Nat
  /-- The 32 source records with their slots and anchors (R63, R84, R105). -/
  sources : Vector Source 32
  /-- The index ring, absent until INDEX_SET sets it (R98). -/
  indexRing : Option IndexRing
  /-- The next index sequence (R98). -/
  indexSeq : Nat
  /-- The clap match of each group; none is CLOSED (R109). -/
  claps : Vector (Option ClapMatch) 8
  /-- The 8 group records (R123). -/
  groups : Vector Group 8
  /-- The 4 marker records (R134). -/
  markers : Vector Marker 4
  /-- The 8 window records; none is CLOSED (R138). -/
  windows : Vector (Option Window) 8
  /-- The held-read list, in the order of arrival (R151). -/
  held : List Held
  /-- The redirect table (R148). -/
  redirects : List Redirect
  /-- Control-window beats handed to the command unit and not yet taken, in order (R6, R159). -/
  inbox : List ControlBeat
  /-- The current values of S0 to S6 (R160). -/
  settings : Vector (BitVec 32) 7
  /-- The 16 command slots (R163). -/
  slots : Vector CommandSlot 16
  /-- The RESTART drain: the slot of the RESTART while it runs (R171). -/
  drain : Option (Fin 16)
  /-- The report producer count (R175). -/
  producer : Nat
  /-- The consumer copy (R175, R177). -/
  consumer : Nat
  /-- The event flags (R180). -/
  eventFlags : EventFlags
  /-- The parts of the status block changed in the event under way; empty between steps (R183). -/
  dirty : List Nat
  /-- FREE VALUE (log entry 8): a supply of orders for things the manual leaves without an order (R26, R183). No
  statement rests on its value. -/
  orders : List (List Nat)
  deriving DecidableEq, Repr

/-- The machine right after a start at power-on, with the straps at 0 (log entry 12): every block at its reset value
and the 21 start-up writes in the own-write queue. -/
def State.reset : State :=
  { pending := [], rstn := true, cwb := 0, startKind := .powerOn, linkOpen := false, startupFaults := [], now := 0,
    presented := [], waiting := [], nextId := 0, outstanding := [], parks := Vector.replicate 64 none, returned := [], stream := [],
    ownQueue := startUpWrites .powerOn 0 0, offered := [], inFlight := [], inFlightOwn := [],
    rate := 1, pendingRate := none, pc := 0, phase := 0, preset := none, jamMode := .off, jamLength := 4,
    jamRun := none, deferral := false, fpo := false,
    lock := .free, refEnable := false, ref := RefFields.initial, pendingRef := none, attempts := 0, acqRun := none,
    holdMark := false, lastUsed := none, usedNext := false, scheduled := [], excursion := false, strict := 0,
    holdCount := 0,
    sources := Vector.replicate 32 Source.empty, indexRing := none, indexSeq := 0,
    claps := Vector.replicate 8 none, groups := Vector.replicate 8 Group.initial,
    markers := Vector.replicate 4 Marker.initial, windows := Vector.replicate 8 none, held := [], redirects := [],
    inbox := [], settings := settingsDefaults, slots := Vector.replicate 16 .idle, drain := none,
    producer := 0, consumer := 0, eventFlags := EventFlags.clear, dirty := [], orders := [] }

end Sys2Proof.Machine
end

