-- ==== Sys2Proof/Machine/Flags.lean ====
section
/-! DEFINITION. The attention flags: which event sets which flag (R180), the set of flags, and the ATTN line (R181). -/

namespace Sys2Proof.Machine

/-- R180: REPORT_PENDING is a level, set while the producer count differs from the consumer copy. -/
def State.reportPending (s : State) : Bool :=
  s.producer != s.consumer

/-- The seven event flags as bits 1..7 of the set of flags (R185). -/
def EventFlags.toNat (f : EventFlags) : Nat :=
  2 * flagNat f.overrun + 4 * flagNat f.lockChange + 8 * flagNat f.sourceFault + 16 * flagNat f.slip +
    32 * flagNat f.takeChange + 64 * flagNat f.window + 128 * flagNat f.commandDone

/-- The set of eight attention flags (R180, R185). -/
def State.flags (s : State) : Nat :=
  flagNat s.reportPending + s.eventFlags.toNat

/-- R181: ATTN is high while a flag is set whose enable in S0 is on, and low while RST_N is low. -/
def State.attn (s : State) : Bool :=
  s.rstn && (BitVec.ofNat 8 s.flags &&& s.settings[0].extractLsb' 0 8) != 0

/-- R180: the flag that a report handed over sets, whether or not its record is written. -/
def ReportKind.raises : ReportKind → EventFlags → EventFlags
  | .lockState, f | .referenceRejected, f => { f with lockChange := true }
  | .slip, f | .clapUnmatched, f => { f with slip := true }
  | .takeState, f => { f with takeChange := true }
  | .heldTimeout, f | .slugServed, f | .heldListFull, f => { f with window := true }
  | .start, f | .phaseExcursion, f | .jam, f | .sourceState, f | .headerReject, f | .lateChange, f
  | .commandDone, f | .settingRefused, f | .storeError, f => f

/-- R170: the flags named in a set are cleared; REPORT_PENDING (bit 0) follows the ring. -/
def EventFlags.acknowledge (f : EventFlags) (named : BitVec 8) : EventFlags :=
  { overrun := f.overrun && !named.getLsbD 1, lockChange := f.lockChange && !named.getLsbD 2,
    sourceFault := f.sourceFault && !named.getLsbD 3, slip := f.slip && !named.getLsbD 4,
    takeChange := f.takeChange && !named.getLsbD 5, window := f.window && !named.getLsbD 6,
    commandDone := f.commandDone && !named.getLsbD 7 }

end Sys2Proof.Machine
end

