-- ==== Sys2Proof/Machine/Ops.lean ====
section
/-! DEFINITION. The operations every block shares: access to the records, the own-write queue with its offered writes
and merged write-backs (R14, R15), reports and the ring (R175, R176), index entries (R99), the parts of the status
block (R182, R183), the completion of commands (R164), the forwarded stream (R12), park flags (R10), and the responses
to initiators (R1). -/

namespace Sys2Proof.Machine

/-! ### Records -/

/-- The control window base (R4). -/
def State.controlBase (s : State) : Nat := controlBaseOf s.cwb

def State.putSource (s : State) (n : Fin 32) (x : Source) : State := { s with sources := s.sources.set n x }
def State.putGroup (s : State) (g : Fin 8) (x : Group) : State := { s with groups := s.groups.set g x }
def State.putClap (s : State) (g : Fin 8) (x : Option ClapMatch) : State := { s with claps := s.claps.set g x }
def State.putMarker (s : State) (m : Fin 4) (x : Marker) : State := { s with markers := s.markers.set m x }
def State.putWindow (s : State) (w : Fin 8) (x : Option Window) : State := { s with windows := s.windows.set w x }

/-- The slot record of an index; a FREE one where the source has none. -/
def Source.slot (x : Source) (i : Nat) : Slot := x.slots.getD i Slot.free

/-- The source with the slot record of an index replaced. -/
def Source.withSlot (x : Source) (i : Nat) (y : Slot) : Source := { x with slots := x.slots.set i y }

def State.putSlot (s : State) (n : Fin 32) (i : Nat) (y : Slot) : State := s.putSource n (s.sources[n].withSlot i y)

/-- The base address of slot `i` of a source (R84). -/
def Source.slotAddress (x : Source) (i : Nat) : Nat := x.ringBase + i * x.bufferLength * 64

/-- The members of a group: the sources whose records name it (R63, R123). -/
def State.members (s : State) (g : Fin 8) : List (Fin 32) :=
  (List.finRange 32).filter fun n => s.sources[n].group == some g

/-- A set of sources with one more, in ascending order. -/
def insertSource (n : Fin 32) (xs : List (Fin 32)) : List (Fin 32) :=
  (List.finRange 32).filter fun m => m == n || xs.contains m

/-! ### Settings as the blocks read them (R160) -/

def State.highMark (s : State) : Nat := settingBits s.settings[4] 0 8
def State.ageLimit (s : State) : Nat := settingBits s.settings[4] 8 8
def State.tailLimit (s : State) : Nat := settingBits s.settings[5] 0 8
def State.clapWindow (s : State) : Nat := settingBits s.settings[5] 8 8
def State.holdoverLimit (s : State) : Nat := settingBits s.settings[3] 0 16
def State.fineStep (s : State) : Nat := settingBits s.settings[2] 0 3
def State.fineRelock (s : State) : Bool := settingBits s.settings[2] 4 2 == 1
def State.strictFlag (s : State) : Bool := s.settings[2].getLsbD 8
def State.cameraStep (s : State) : Nat := settingBits s.settings[6] 0 3
def State.soundStep (s : State) : Nat := settingBits s.settings[6] 4 3
def State.slipAdopt (s : State) : Bool := settingBits s.settings[6] 8 2 == 0

/-- R160: the report enables of S1, bit (report code − 2); START has none and is always enabled (R176). -/
def State.reportEnabled (s : State) (k : ReportKind) : Bool :=
  k == .start || s.settings[1].getLsbD (k.code - 2)

/-! ### Free orders (log entry 8) -/

/-- The members of `xs` in the order that `pref` gives them, those `pref` does not name after them. -/
def orderBy : List Nat → List Nat → List Nat
  | [], xs => xs
  | p :: ps, xs => if xs.contains p then p :: orderBy ps (xs.erase p) else orderBy ps xs

/-- Where the manual gives no order to several things, the next order of the supply gives it (R26, R183). -/
def State.chooseOrder (s : State) (xs : List Nat) : List Nat × State :=
  if xs.length < 2 then (xs, s)
  else match s.orders with
    | []      => (xs, s)
    | o :: os => (orderBy o xs, { s with orders := os })

/-! ### Own writes (R14, R15) -/

/-- R15: the write-back of a word that stands unissued takes the new contents where it stands. -/
def mergeWriteBack (w : OwnWrite) (o : OwnWrite) : OwnWrite :=
  if o.kind = w.kind then { o with beats := w.beats } else o

/-- Whether an own write is a settings write-back. -/
def OwnKind.isWriteBack : OwnKind → Bool
  | .writeBack _ => true
  | _            => false

/-- R14, R15: a block produces an own write. A write-back of a word that already has one unissued merges with it;
any other write joins the queue, or is offered while the queue holds 32 entries. -/
def State.produce (s : State) (kind : OwnKind) (addr : Nat) (beats : List WriteBeat) : State :=
  let w : OwnWrite := { kind, addr, beats, joined := s.now }
  if kind.isWriteBack && (s.ownQueue ++ s.offered).any (fun o => decide (o.kind = kind)) then
    { s with ownQueue := s.ownQueue.map (mergeWriteBack w), offered := s.offered.map (mergeWriteBack w) }
  else if s.ownQueue.length < 32 then { s with ownQueue := s.ownQueue ++ [w] }
  else { s with offered := s.offered ++ [w] }

/-- R14: when an entry has left the queue, the oldest offered own write joins it. -/
def State.joinOffered (s : State) : State :=
  match s.offered with
  | [] => s
  | w :: ws =>
    if s.ownQueue.length < 32 then { s with ownQueue := s.ownQueue ++ [{ w with joined := s.now }], offered := ws } else s

/-- A write into the control window at an offset, one beat, all enables set. -/
def State.produceControl (s : State) (kind : OwnKind) (offset : Nat) (b : Beat) : State :=
  s.produce kind (s.controlBase + offset) [fullBeat b]

/-! ### The status block (R182, R183) -/

/-- A part of the status block has changed in this event; it is rewritten once (R183). The taking of a request with all
its beats is one event, so a part that several beats of a capture write change is rewritten once (DEDUCED, log entry 44). -/
def State.mark (s : State) (part : Nat) : State :=
  if s.dirty.contains part then s else { s with dirty := s.dirty ++ [part] }

/-- R182: beat `n` of the status block as the state stands. -/
def State.partBeat (s : State) (n : Nat) : Beat :=
  if h : n < 32 then sourceBeat (s.sources[n]'h)
  else if h : n < 40 then groupBeat (s.groups[n - 32]'(by omega))
  else if h : n < 48 then windowBeat (s.windows[n - 40]'(by omega))
  else if n = timePart then timeBeat s.rate s.pc s.lock s.refEnable s.jamMode
  else if n = attentionPart then attentionBeat s.flags s.producer s.consumer
  else if n = indexPart then indexBeat s.indexRing s.indexSeq
  else if n = headerPart then headerBeat s.startKind s.cwb
  else 0

/-- R183: a changed part is rewritten, as one own write of 1 beat carrying the part as it stands. -/
def State.rewrite (s : State) (n : Nat) : State :=
  if s.dirty.contains n then
    ({ s with dirty := s.dirty.erase n }).produceControl (.statusPart n) (n * 64) (s.partBeat n)
  else s

/-- The changed parts that `p` selects are rewritten, in an order the manual leaves free. -/
def State.rewriteParts (s : State) (p : Nat → Bool) : State :=
  let c := s.chooseOrder (s.dirty.filter p)
  c.1.foldl State.rewrite c.2

/-- R164: the parts rewritten before a command's status record; the attention-and-ring beat counts the COMMAND_DONE
record and follows it (R183). At the completion of a PENDING command only the owner's own part stands before the status
record (log entry 42). -/
def State.rewriteOwners (s : State) : State :=
  s.rewriteParts fun n => n != attentionPart

/-- R183: at the end of an event every changed part not yet rewritten is, once for the whole event (log entry 44). -/
def State.settle (s : State) : State :=
  s.rewriteParts fun _ => true

/-! ### Flags and reports -/

/-- An event changes the event flags; a change of the set rewrites the attention-and-ring beat (R183). -/
def State.raise (s : State) (f : EventFlags → EventFlags) : State :=
  if f s.eventFlags = s.eventFlags then s else ({ s with eventFlags := f s.eventFlags }).mark attentionPart

/-- R175, R176, R180: a block hands over a report with the PC its rule names. Its flag is set in every case; the record
is written if its kind is enabled and fewer than 15,359 records are unconsumed, and a full ring sets REPORT_OVERRUN. -/
def State.reportAt (s : State) (pc : Nat) (kind : ReportKind) (subject d1 d2 : Nat) : State :=
  let s := s.raise kind.raises
  if s.reportEnabled kind then
    if s.producer - s.consumer < 15359 then
      (({ s with producer := s.producer + 1 }).produceControl (.report s.producer) (reportOffset s.producer)
        (reportBeat s.producer kind subject pc d1 d2)).mark attentionPart
    else s.raise fun f => { f with overrun := true }
  else s

/-- A report whose PC is the one standing when the block takes the event (R175). -/
def State.report (s : State) (kind : ReportKind) (subject d1 d2 : Nat) : State :=
  s.reportAt s.pc kind subject d1 d2

/-! ### Index entries -/

/-- R99: an entry takes the next sequence and, with an index ring set, is produced as one own write of 1 beat. The next
sequence is a number without bound: R98 gives it the range 0..2^64 − 1 and no rule beyond (DESIGN CHOICE, log entry 47). -/
def State.entry (s : State) (e : Entry) : State :=
  let s1 := match s.indexRing with
    | some ring =>
      s.produce (.index s.indexSeq) (ring.base + s.indexSeq % ring.capacity * 64) [fullBeat (entryBeat s.rate s.indexSeq e)]
    | none => s
  ({ s1 with indexSeq := s.indexSeq + 1 }).mark indexPart

/-! ### Commands (R163, R164) -/

/-- The status record of a slot, one beat at 0x02800 + n × 64 (R164). -/
def State.statusRecord (s : State) (slot : Fin 16) (state result : Nat) (rec : Beat) (collided : Bool) (pc r1 r2 : Nat) : State :=
  s.produceControl (.statusRecord slot.val) (statusRecordOffset slot.val)
    (statusRecordBeat state result (commandCode rec) (flagNat collided) (commandTag rec) pc r1 r2)

def CommandSlot.ofResult : ResultCode → CommandSlot
  | .done | .abortedRestart => .done
  | .refusedState | .refusedRange | .refusedOverlap | .refusedFull | .refusedUnknown => .refused

/-- R164, R165: a command completes. The slot takes the state of the result, the status record is produced, the
COMMAND_DONE flag is left as `flag` says, and the COMMAND_DONE report follows. -/
def State.completeLeaving (s : State) (flag : Bool) (slot : Fin 16) (rec : Beat) (collided : Bool) (code : ResultCode)
    (pc r1 r2 : Nat) : State :=
  let state := CommandSlot.ofResult code
  let s := { s with slots := s.slots.set slot state }
  let s := s.statusRecord slot state.code code.code rec collided pc r1 r2
  let s := s.raise fun f => { f with commandDone := flag }
  s.report .commandDone slot.val (byteWord [commandCode rec, code.code]) (commandTag rec)

/-- R164: the completion of a command sets COMMAND_DONE. -/
def State.complete (s : State) (slot : Fin 16) (rec : Beat) (collided : Bool) (code : ResultCode) (pc r1 r2 : Nat) : State :=
  s.completeLeaving true slot rec collided code pc r1 r2

/-- R164, R166: the owner completes a PENDING command, with the record it was taken with and its collision mark. A slot
that is not PENDING has nothing to complete (R171). -/
def State.completePending (s : State) (slot : Fin 16) (code : ResultCode) (pc r1 r2 : Nat) : State :=
  match s.slots[slot] with
  | .pending rec collided => s.complete slot rec collided code pc r1 r2
  | .idle | .done | .refused => s

/-- R163, R164: a command becomes PENDING and its PENDING status record is produced. -/
def State.makePending (s : State) (slot : Fin 16) (rec : Beat) : State :=
  let s := { s with slots := s.slots.set slot (.pending rec false) }
  s.statusRecord slot 1 0 rec false s.pc 0 0

/-! ### Requests and responses (R1) -/

def State.park (s : State) (i : Fin 64) (request : Nat) : State := { s with parks := s.parks.set i (some request) }
def State.unpark (s : State) (i : Fin 64) : State := { s with parks := s.parks.set i none }

/-- The responses that can be returned to an initiator in the order of its requests, and the requests that remain. -/
def deliver (i : Fin 64) : List Taken → List Returned × List Taken
  | [] => ([], [])
  | t :: ts =>
    if t.initiator = i then
      match t.answer with
      | some a => let r := deliver i ts; ({ initiator := i, request := t.request, answer := a } :: r.1, r.2)
      | none   => ([], t :: ts)
    else let r := deliver i ts; (r.1, t :: r.2)

/-- R1: the answer of a request is known; what can be returned to its initiator in order is returned. -/
def State.answer (s : State) (request : Nat) (a : Answer) : State :=
  match s.outstanding.find? (fun t => t.request == request) with
  | none => s
  | some t =>
    let marked := s.outstanding.map fun t => if t.request = request then { t with answer := some a } else t
    let r := deliver t.initiator marked
    { s with outstanding := r.2, returned := s.returned ++ r.1 }

/-- The answer a store-link response gives to a request (R7, R9). -/
def answerOf : StoreResponse → Answer
  | .okay data => .okay data
  | .fault     => .fault

/-- R8: the single response to a capture write is due when all its parts have been formed and answered. -/
def State.answerCapture (s : State) (request : Nat) : State :=
  match s.outstanding.find? (fun t => t.request == request) with
  | some t => if t.parts = 0 && !t.forming then s.answer request (if t.faulted then .fault else .okay []) else s
  | none   => s

/-- Changes the record of a request that has been taken. -/
def State.updateTaken (s : State) (request : Nat) (f : Taken → Taken) : State :=
  { s with outstanding := s.outstanding.map fun t => if t.request = request then f t else t }

/-- R12: a transaction joins the forwarded stream. -/
def State.join (s : State) (cargo : Cargo) (addr : Nat) (access : Access) : State :=
  { s with stream := s.stream ++ [{ tag := s.nextId, cargo, addr, access }], nextId := s.nextId + 1 }

end Sys2Proof.Machine
end

