-- ==== Sys2Proof/Machine/Markers.lean ====
section
/-! DEFINITION. The marker unit: triggers and pulse trains on MK0 to MK3 (R134 to R137). -/

namespace Sys2Proof.Machine

/-- Ticks of a width in ms: 1 ms is 27,000 ticks (R134). -/
def ticksOfMs (ms : Nat) : Nat := ms * 27000

/-- R135: a train starts, or restarts, from pulse 1 with the width and count the record holds. -/
def Marker.start (m : Marker) (now : Nat) : Marker :=
  { m with train := some { width := m.width, count := m.count, pulse := 1, high := true, partEnd := now + ticksOfMs m.width } }

/-- R135: the timed part under way ends: a high part is followed by a gap, or by the train IDLE after pulse n; a gap is
followed by the next pulse. -/
def Marker.partEnds (m : Marker) : Marker :=
  match m.train with
  | none => m
  | some t =>
    if t.high then
      if t.count ≤ t.pulse then { m with train := none }
      else { m with train := some { t with high := false, partEnd := t.partEnd + ticksOfMs t.width } }
    else { m with train := some { t with high := true, pulse := t.pulse + 1, partEnd := t.partEnd + ticksOfMs t.width } }

/-- R135: the train ends and the line goes low. -/
def Marker.stop (m : Marker) : Marker := { m with train := none }

/-- The level of a marker line: high in a high part of its train, low otherwise (R134). -/
def Marker.level (m : Marker) : Bool :=
  match m.train with
  | some t => t.high
  | none   => false

/-- The level of MK0 to MK3; low while RST_N is low (R137). -/
def State.markerLine (s : State) (m : Fin 4) : Bool := s.rstn && s.markers[m].level

def State.startTrain (s : State) (m : Fin 4) : State := s.putMarker m (s.markers[m].start s.now)

/-- R134, R135: an event that is a trigger starts a train on every line whose record names it. -/
def State.trigger (s : State) (t : Trigger) : State :=
  (List.finRange 4).foldl (fun s m => if s.markers[m].trigger = t then s.startTrain m else s) s

/-- R136 step 1: SET replaces trigger, width and count; a RUNNING train goes on with its own, unless the new trigger is
NONE, which ends it. -/
def Marker.set (m : Marker) (trigger : Trigger) (width count : Nat) : Marker :=
  { trigger, width, count, train := if trigger = .none then none else m.train }

/-- R136: the three parts of a MARKER command, in their order: SET, then STOP, or FIRE without STOP. -/
def Marker.apply (m : Marker) (set : Option (Trigger × Nat × Nat)) (fire stop : Bool) (now : Nat) : Marker :=
  let m := match set with
    | some (trigger, width, count) => m.set trigger width count
    | none => m
  if stop then m.stop
  else if fire && decide (m.trigger ≠ .none) then m.start now
  else m

end Sys2Proof.Machine
end

