-- ==== Sys2Proof/Machine/Groups.lean ====
section
/-! DEFINITION. The group table: rolls, stops, tails and ends of takes (R123 to R133), and the take number of an index
entry (R102). -/

namespace Sys2Proof.Machine

/-- R127: a TAKE_STATE report. Its first word holds the old state, the new state, the take number in 2 bytes, and the
cause (R188); its second a count. -/
def State.takeState (s : State) (g : Fin 8) (old new : GroupState) (take : Nat) (cause : TakeCause) (count : Nat) : State :=
  s.report .takeState g.val (old.code + 256 * new.code + 65536 * take + 4294967296 * cause.code) count

/-- The entry of a group event: the count of the event with fraction 0 (R100). -/
def groupEntry (kind : EntryKind) (source : Nat) (g : Fin 8) (take flags count : Nat) : Entry :=
  { kind, source, group := some g, completion := none, take, flags, stamp := { count, frac := 0 }, gapSize := 0,
    position := 0, slotAddress := 0 }

/-- The flags of a TAKE_END entry by its cause (R130, R131): bits 9 and 10. -/
def TakeCause.endFlags : TakeCause → Nat
  | .tailExpired => 512
  | .abandoned   => 1024
  | .armed | .rolled | .lateRoll | .stopBoundary | .ended | .disarmed => 0

/-- R130: the take of a group ends. In this order: the TAKE_END entry, the ended take and the state IDLE, the report,
the rewrite of the group's part, the completion of the stop command, the TAKE_END triggers. Of the changed parts of the
status block only the group's own is rewritten before the status record of the stop command; the others follow at the end
of the event (DESIGN CHOICE, log entry 42). -/
def State.takeEnd (s : State) (g : Fin 8) (endCount : Nat) (cause : TakeCause) : State :=
  let x := s.groups[g]
  let s := s.entry (groupEntry .takeEnd 0 g x.take cause.endFlags endCount)
  let s := s.putGroup g { x with
    state := .idle, stopCount := none, stopCommand := none, passed := [], awaited := [], tail := 0,
    ended := some { take := x.take, rollCount := x.rollCount, endCount } }
  let s := s.takeState g x.state .idle x.take cause endCount
  let s := s.mark (groupPart g)
  let s := match x.stopCommand with
    | some slot => (s.rewrite (groupPart g)).completePending slot .done s.pc endCount cause.code
    | none      => s
  s.trigger (.takeEnd g)

/-- R129, R130: a member leaves the awaited members of a STOPPING group; if that leaves none, the take ends at the PC
standing. -/
def State.unawait (s : State) (g : Fin 8) (n : Fin 32) : State :=
  let x := s.groups[g]
  if x.state = .stopping ∧ x.awaited.contains n then
    let rest := x.awaited.filter (· != n)
    let s := s.putGroup g { x with awaited := rest }
    if rest.isEmpty then s.takeEnd g s.pc .ended else s
  else s

/-- R128, R129: a completion of a stamped slot of a CAMERA or SOUND member. At or after the stop count it adds the
member to the passed members, and removes it from the awaited ones. R130 has a completion after TAIL_EXPIRED only record its
pass and clears the passed members of the ended take; a group that is IDLE has no stop count to pass, and nothing is
recorded (DEDUCED, log entry 39). -/
def State.tailPass (s : State) (n : Fin 32) (count : Nat) : State :=
  match s.sources[n].group with
  | none => s
  | some g =>
    let x := s.groups[g]
    match x.state, x.stopCount with
    | .rolling, some stop | .stopping, some stop =>
      if atOrAfter s.rate count stop then
        (s.putGroup g { x with passed := insertSource n x.passed }).unawait g n
      else s
    | _, _ => s

/-- R132: a member of a ROLLING or STOPPING group leaves LIVE: a MEMBER_LOST entry, and if the group awaited it, it is
awaited no more. The group is read after the completion of the member's FILLING slot, which R75, R77 and R79 put first; if
that completion ended the take, the group is IDLE and there is no entry (DEDUCED, log entry 40). -/
def State.memberLost (s : State) (n : Fin 32) : State :=
  match s.sources[n].group with
  | none => s
  | some g =>
    let x := s.groups[g]
    match x.state with
    | .rolling | .stopping => (s.entry (groupEntry .memberLost n.val g x.take 0 s.pc)).unawait g n
    | .idle | .armed => s

/-- R126: an accepted ROLL record of a LIVE slate sets the roll due mark of its group, if that is ARMED ON_SLATE. -/
def State.rollRecord (s : State) (n : Fin 32) : State :=
  match s.sources[n].group with
  | none => s
  | some g =>
    let x := s.groups[g]
    if x.state = .armed ∧ x.rollMode = .onSlate then s.putGroup g { x with rollDue := true } else s

/-- R127: a group rolls at a boundary of new count `pc`. In this order: the TAKE_START entry, the report, the rewrite of
the group's part, the TAKE_ROLL triggers. -/
def State.roll (s : State) (g : Fin 8) (pc : Nat) : State :=
  let x := s.groups[g]
  let late := decide (x.rollMode = .atTime ∧ pc ≠ x.requestedRoll)
  let take := x.take + 1
  let s := s.putGroup g { x with
    state := .rolling, take, rollCount := pc, stopCount := none, stopCommand := none, passed := [], awaited := [],
    rollDue := false }
  let s := s.entry (groupEntry .takeStart 0 g take (if late then 256 else 0) pc)
  let s := s.takeState g x.state .rolling take (if late then .lateRoll else .rolled) (if late then x.requestedRoll else pc)
  (s.mark (groupPart g)).trigger (.takeRoll g)

/-- R126: whether an ARMED group rolls at a boundary of new count `pc`. -/
def Group.rollsAt (x : Group) (r : Rate) (pc : Nat) : Bool :=
  match x.rollMode with
  | .atTime => atOrAfter r pc x.requestedRoll
  | .onSlate | .now => x.rollDue

/-- R129: the members that a group reaching its stop boundary awaits. -/
def State.toAwait (s : State) (g : Fin 8) : List (Fin 32) :=
  (s.members g).filter fun n =>
    decide (s.sources[n].kind ≠ .slate ∧ s.sources[n].state = .live) && !s.groups[g].passed.contains n

/-- R129: a ROLLING group reaches its stop boundary; with none to await, the take ends at once at this boundary. -/
def State.stopBoundary (s : State) (g : Fin 8) (stop : Nat) : State :=
  let x := s.groups[g]
  let awaited := s.toAwait g
  let s := s.putGroup g { x with state := .stopping, tail := 0, awaited }
  let s := (s.takeState g .rolling .stopping x.take .stopBoundary stop).mark (groupPart g)
  if awaited.isEmpty then s.takeEnd g s.pc .ended else s

/-- R126, R129, R130: what one group does at a boundary of new count `pc`. -/
def State.groupBoundary (s : State) (pc : Nat) (g : Fin 8) : State :=
  let x := s.groups[g]
  match x.state with
  | .idle => s
  | .armed => if x.rollsAt s.rate pc then s.roll g pc else s
  | .rolling =>
    match x.stopCount with
    | some stop => if atOrAfter s.rate pc stop then s.stopBoundary g stop else s
    | none      => s
  | .stopping =>
    let s1 := s.putGroup g { x with tail := x.tail + 1 }
    if s.tailLimit ≤ x.tail + 1 then s1.takeEnd g pc .tailExpired else s1

/-- R123: at a boundary of cause RATE the ended take of every group becomes absent. -/
def State.dropEndedTakes (s : State) : State :=
  (List.finRange 8).foldl (fun s g => s.putGroup g { s.groups[g] with ended := none }) s

/-- R37, R61: whether any group is ROLLING or STOPPING. -/
def State.anyRolling (s : State) : Bool :=
  (List.finRange 8).any fun g => s.groups[g].state == .rolling || s.groups[g].state == .stopping

/-- R102: the take number and LATE_FOR_TAKE of an entry of a source whose stamp has a count. -/
def State.takeOf (s : State) (n : Fin 32) (count : Nat) : Nat × Bool :=
  match s.sources[n].group with
  | none => (0, false)
  | some g =>
    let x := s.groups[g]
    let running := x.state == .rolling || x.state == .stopping
    let beforeStop := match x.stopCount with
      | some stop => !atOrAfter s.rate count stop
      | none      => true
    if running && atOrAfter s.rate count x.rollCount && beforeStop then (x.take, false)
    else match x.ended with
      | some e => (0, atOrAfter s.rate count e.rollCount && !atOrAfter s.rate count e.endCount)
      | none   => (0, false)

end Sys2Proof.Machine
end

