-- ==== Sys2Proof/Machine/Windows.lean ====
section
/-! DEFINITION. The window table, the held-read list and the redirect table: targets (R141, R144), the lookup and
outcome of a WINDOW read (R146, R147), redirected, slug and held reads (R148 to R155), and the table's reports (R156). -/

namespace Sys2Proof.Machine

/-- R141, R142: the target that a mode with its delay or cue stamp sets at once. -/
def aimTarget (r : Rate) (pc : Nat) (a : WindowAim) : Stamp :=
  match a.mode, a.cue with
  | .liveDelay, _ => { count := countAdd r pc (-(a.delay : Int)), frac := 0 }
  | .cueStill, some c | .cueRoll, some c => c
  | .cueStill, none | .cueRoll, none => { count := 0, frac := 0 }

/-- R144: the target of a window after a boundary of new count `pc`. -/
def Window.retarget (w : Window) (r : Rate) (pc : Nat) : Stamp :=
  match w.mode with
  | .liveDelay => { count := countAdd r pc (-(w.delay : Int)), frac := 0 }
  | .cueStill  => w.target
  | .cueRoll   =>
    if w.speedRatio ≤ w.target.frac + 1 then { count := countAdd r w.target.count 1, frac := 0 }
    else { w.target with frac := w.target.frac + 1 }

/-- R144: what the window table does at a boundary, for every OPEN window. -/
def State.retargetWindows (s : State) (pc : Nat) : State :=
  (List.finRange 8).foldl (fun s w =>
    match s.windows[w] with
    | none   => s
    | some x =>
      let t := x.retarget s.rate pc
      if t = x.target then s else (s.putWindow w (some { x with target := t })).mark (windowPart w)) s

/-- R146: whether a slot may carry a target: FILLING or COMPLETE, with that stamp. -/
def Slot.carries (y : Slot) (t : Stamp) : Bool :=
  (y.state == .filling || y.state == .complete) && y.stamp == some t

/-- The local position in a slot's fill record. -/
def Slot.position (y : Slot) : Word64 :=
  match y.fill with
  | some f => f.position
  | none   => 0

/-- R146: the chosen slot among the slots from index `i` on: the candidate of greatest local position, and of two with
equal positions the one of lower index. -/
def chooseSlot (t : Stamp) : Nat → List Slot → Option (Nat × Word64)
  | _, [] => none
  | i, y :: ys =>
    let rest := chooseSlot t (i + 1) ys
    if y.carries t then
      match rest with
      | some (j, p) => if y.position < p then some (j, p) else some (i, y.position)
      | none        => some (i, y.position)
    else rest

/-- R146, R147: the outcome of a read of a window at its arrival. -/
def State.readOutcome (s : State) (w : Window) : ReadOutcome :=
  let x := s.sources[w.source]
  if !w.bound || x.state != .live then .slug .notLive
  else match chooseSlot w.target 0 x.slots with
    | some (i, _) =>
      if (x.slot i).state = .complete then .redirect i
      else if s.held.length < 16 then .hold i
      else .listFull
    | none =>
      if x.slots.any (fun y => y.state == .reclaim && y.stamp == some w.target) then .slug .reclaimed else .slug .noSlot

/-- R149: a slug read: the window's slug base plus the read's offset, no entry and no pin. -/
def State.slugRead (s : State) (w : Fin 8) (request offset beats : Nat) : State :=
  match s.windows[w] with
  | some x => s.join (.slug request) (x.slugBase + offset) (.read beats)
  | none   => s

/-- R148: a redirected read of a slot: its transaction, its redirect entry and its pin, at one event. -/
def State.redirectRead (s : State) (w : Fin 8) (i : Fin 64) (request : Nat) (n : Fin 32) (slot offset beats : Nat) : State :=
  let x := s.sources[n]
  let y := x.slot slot
  let s1 := s.join (.redirected request) (x.slotAddress slot + offset) (.read beats)
  let r : Redirect := { tag := s.nextId, window := w, initiator := i, source := n, slot := slot }
  let s2 : State := { s1 with redirects := s1.redirects ++ [r] }
  s2.putSlot n slot { y with pins := y.pins + 1 }

/-- R156: a HELD_TIMEOUT report of an entry, by cause DEADLINE or NO_ENTRY. -/
def State.heldTimeout (s : State) (e : Held) (cause : Nat) : State :=
  s.report .heldTimeout e.window.val e.target.count (byteWord [e.target.frac, cause, e.initiator.val])

/-- An entry leaves the held-read list; the park flag of its initiator is cleared (R11, R151). -/
def State.dropHeld (s : State) (e : Held) : State :=
  ({ s with held := s.held.filter (· != e) }).unpark e.initiator

/-- R143, R153, R154, R157: an entry is answered with slug. -/
def State.slugHeld (s : State) (e : Held) : State :=
  (s.dropHeld e).slugRead e.window e.request e.offset e.beats

/-- R152: an entry on a slot completed FULL or SHORT becomes a redirected read, or, with the redirect table full, a slug
read with a HELD_TIMEOUT report of cause NO_ENTRY. -/
def State.redirectHeld (s : State) (e : Held) : State :=
  if s.redirects.length < 32 then
    (s.dropHeld e).redirectRead e.window e.initiator e.request e.source e.slot e.offset e.beats
  else (s.slugHeld e).heldTimeout e heldNoEntryCode

/-- R152, R153: every entry on a completed slot leaves the list, in arrival order. -/
def State.releaseHeld (s : State) (n : Fin 32) (slot : Nat) (kind : CompletionKind) : State :=
  (s.held.filter fun e => e.source == n && e.slot == slot).foldl
    (fun s e => match kind with
      | .full | .short => s.redirectHeld e
      | .closed | .faulted => s.slugHeld e) s

/-- R150: the SLUG_SERVED report of a slug read, made when the target differs from the last one reported. -/
def State.slugServed (s : State) (w : Fin 8) (x : Window) (cause : SlugCause) : State :=
  if x.slugReported = some x.target then s
  else
    (s.putWindow w (some { x with slugReported := some x.target })).report .slugServed w.val x.target.count
      (byteWord [x.target.frac, cause.code, x.source.val])

/-- R151: a read is held on a FILLING slot; its deadline is its arrival plus the hold limit, at 27 ticks per µs; its
initiator is parked. -/
def State.holdRead (s : State) (w : Fin 8) (x : Window) (i : Fin 64) (request slot offset beats : Nat) : State :=
  let e : Held := { request := request, window := w, initiator := i, offset := offset, beats := beats, target := x.target,
                    source := x.source, slot := slot, deadline := s.now + x.holdLimit * 27 }
  ({ s with held := s.held ++ [e] }).park i request

/-- R147: a WINDOW read that is taken. -/
def State.windowRead (s : State) (w : Fin 8) (x : Window) (i : Fin 64) (request offset beats : Nat) : State :=
  match s.readOutcome x with
  | .slug cause    => (s.slugRead w request offset beats).slugServed w x cause
  | .redirect slot => s.redirectRead w i request x.source slot offset beats
  | .hold slot     => s.holdRead w x i request slot offset beats
  | .listFull      =>
    (s.slugRead w request offset beats).report .heldListFull w.val x.target.count (byteWord [x.target.frac, i.val])

/-- R139: the binding of every OPEN window bound to a source that becomes EMPTY becomes LOST. -/
def State.loseBindings (s : State) (n : Fin 32) : State :=
  (List.finRange 8).foldl (fun s w =>
    match s.windows[w] with
    | some x => if x.source = n ∧ x.bound then (s.putWindow w (some { x with bound := false })).mark (windowPart w) else s
    | none   => s) s

end Sys2Proof.Machine
end

