-- ==== Sys2Proof/Machine/Slots.lean ====
section
/-! DEFINITION. The slot map: completions (R90), releases of slots (R91), and the changes of a source's state that
complete or release its slots (R75, R77, R79, R81, R82). -/

namespace Sys2Proof.Machine

/-- R100: the flags of a MEDIA, SLATE or CLAP entry: the stamp flags in bits 0..3, CLAP 4, ROLL 5, LATE_FOR_TAKE 6
(log entry 33). -/
def Fill.entryFlags (f : Fill) (lateForTake : Bool) : Nat :=
  f.flags.toNat + 16 * flagNat f.clap + 32 * flagNat f.roll + 64 * flagNat lateForTake

/-- R101, R103: the kind of a completed slot's entry. -/
def Source.entryKind (x : Source) (f : Fill) : EntryKind :=
  match x.kind with
  | .camera | .sound => .media
  | .slate => if f.clap then .clap else .slate

/-- R90 steps 1 and 2: the index entry of a completed stamped slot. -/
def State.slotEntry (s : State) (n : Fin 32) (slot : Nat) (kind : CompletionKind) (st : Stamp) (f : Fill) : State :=
  let x := s.sources[n]
  let take := s.takeOf n st.count
  s.entry { kind := x.entryKind f, source := n.val, group := x.group, completion := some kind, take := take.1,
            flags := f.entryFlags take.2, stamp := st, gapSize := f.gapSize, position := f.position,
            slotAddress := x.slotAddress slot }

/-- R90: a slot completes. It becomes COMPLETE with its kind; the index entry is produced, the held reads on the slot
are released, and a stamped completion of a CAMERA or SOUND source is handed to the group table, in this order. -/
def State.completeSlot (s : State) (n : Fin 32) (slot : Nat) (kind : CompletionKind) : State :=
  let x := s.sources[n]
  let y := x.slot slot
  let s := s.putSlot n slot { y with state := .complete, kind := some kind }
  let s := match y.stamp, y.fill with
    | some st, some f => s.slotEntry n slot kind st f
    | some _, none | none, some _ | none, none => s
  let s := s.releaseHeld n slot kind
  match y.stamp with
  | some st => if x.kind = .slate then s else s.tailPass n st.count
  | none    => s

/-- The FILLING slot of a source, if it has one (R85). -/
def Source.fillingSlot (x : Source) : Option Nat :=
  x.slots.findIdx? (·.state == .filling)

/-- The source's FILLING slot, if any, completes with a kind (R75, R77, R79, R86 step 1). -/
def State.completeFilling (s : State) (n : Fin 32) (kind : CompletionKind) : State :=
  match s.sources[n].fillingSlot with
  | some i => s.completeSlot n i kind
  | none   => s

/-- R91: a slot with a pin count of 0 becomes FREE, with nothing; one with pins becomes RECLAIM and keeps its stamp. -/
def Slot.release (y : Slot) : Slot :=
  if y.pins = 0 then Slot.free else { y with state := .reclaim }

/-- R77, R79: every slot of a source is released. -/
def Source.releaseSlots (x : Source) : Source :=
  { x with slots := x.slots.map Slot.release }

/-- R82: a SOURCE_STATE report, and the source's beat to be rewritten. -/
def State.sourceState (s : State) (n : Fin 32) (old new : SourceState) (cause : SourceCause) : State :=
  (s.report .sourceState n.val (byteWord [old.code, new.code]) cause.code).mark (sourcePart n)

/-- R75: a LIVE source becomes FAULTED. In this order: its FILLING slot completes FAULTED, any MEMBER_LOST entry, the
state, the SOURCE_STATE report, the SOURCE_FAULT flag. -/
def State.fault (s : State) (n : Fin 32) (cause : SourceCause) : State :=
  let s := (s.completeFilling n .faulted).memberLost n
  let s := s.putSource n { s.sources[n] with state := .faulted }
  (s.sourceState n .live .faulted cause).raise fun f => { f with sourceFault := true }

/-- R81: whether a CLOSING source has no slot in RECLAIM and no waiting header. -/
def Source.drained (x : Source) : Bool :=
  x.state == .closing && x.slots.all fun y => y.state != .reclaim && y.waiting.isNone

end Sys2Proof.Machine
end

