-- ==== Sys2Proof/Machine/Anchors.lean ====
section
/-! DEFINITION. The anchor store and the lateness monitor: the anchor list (R105, R106), the selection of an anchor
(R93), clap matches (R109 to R118), clap positions and slip (R113 to R116), and lateness (R119, R120). -/

namespace Sys2Proof.Machine

/-- R106: an anchor becomes the first of its list; the oldest of a full list of 8 is removed. -/
def pushAnchor (a : Anchor) (xs : List Anchor) : List Anchor :=
  (a :: xs).take 8

def State.addAnchor (s : State) (n : Fin 32) (a : Anchor) : State :=
  let x := s.sources[n]
  s.putSource n { x with anchors := pushAnchor a x.anchors }

/-- What R93 finds in an empty list, which a LIVE camera or sound source never has (R74). -/
def Anchor.absent : Anchor :=
  { pc := 0, position := 0, base := 0, origin := .qualify }

/-- R93: the newest anchor at or below a local position, or else the oldest anchor with BEFORE_ANCHOR. -/
def selectAnchor (xs : List Anchor) (p : Word64) : Anchor × Bool :=
  match xs.find? (fun a => decide (a.position ≤ p)) with
  | some a => (a, false)
  | none   => (xs.getLastD Anchor.absent, true)

/-- R39: at a PRESET or JAM discontinuity the delta is added to the PC of every anchor of every source. -/
def State.shiftAnchors (s : State) (delta : Int) : State :=
  (List.finRange 32).foldl (fun s n =>
    let x := s.sources[n]
    s.putSource n { x with anchors := x.anchors.map fun a => { a with pc := countAdd s.rate a.pc delta } }) s

/-! ### Clap matches -/

/-- R118: the match of a group closes; every unmatched expected member is reported, in ascending order of number. -/
def State.closeClap (s : State) (g : Fin 8) (way : ClapClosing) : State :=
  match s.claps[g] with
  | none   => s
  | some c =>
    let unmatched := (List.finRange 32).filter fun n => c.expected.contains (n, false)
    unmatched.foldl (fun s n => s.report .clapUnmatched n.val c.point.count (byteWord [g.val, way.code])) (s.putClap g none)

/-- R117: a match with no unmatched member closes complete, without a report. -/
def ClapMatch.orComplete (c : ClapMatch) : Option ClapMatch :=
  if c.expected.any (fun e => !e.2) then some c else none

/-- R117: a source is removed from the expected members of a group's OPEN match. -/
def State.unexpect (s : State) (g : Fin 8) (n : Fin 32) : State :=
  match s.claps[g] with
  | none   => s
  | some c =>
    if c.expected.any (fun e => e.1 == n) then
      s.putClap g ({ c with expected := c.expected.filter fun e => e.1 != n }).orComplete
    else s

/-- R110: an accepted CLAP record of a LIVE slate. A match of its group that is OPEN closes by second clap; a new one
opens, with the CAMERA and SOUND members expected; the CLAP triggers are handed on. -/
def State.openClap (s : State) (n : Fin 32) (point : Stamp) : State :=
  match s.sources[n].group with
  | none   => s
  | some g =>
    let s := s.closeClap g .secondClap
    let expected := ((s.members g).filter fun m => decide (s.sources[m].kind ≠ .slate)).map fun m => (m, false)
    let c : ClapMatch := { point := point, slate := n, remaining := s.clapWindow, expected := expected }
    (s.putClap g c.orComplete).trigger (.clap g)

/-- R111: what a group's match does at a boundary. -/
def State.clapBoundary (s : State) (cause : Option BoundaryCause) (g : Fin 8) : State :=
  match s.claps[g] with
  | none   => s
  | some c =>
    match cause with
    | some .preset | some .jam => s.closeClap g .timeChange
    | none | some .rate =>
      if c.remaining ≤ 1 then s.closeClap g .windowEnd
      else s.putClap g (some { c with remaining := c.remaining - 1 })

/-! ### Slip -/

/-- What a pairing finds: the candidate anchor, the slip, and the origin of the stamping anchor (R113, R114). -/
structure Pairing where
  candidate : Anchor
  slip      : Int
  origin    : AnchorOrigin
  deriving DecidableEq, Repr

/-- R113: the pairing of a camera member, with clap point count `c` and the CLAP header's local position. -/
def cameraPairing (r : Rate) (x : Source) (c : Nat) (p : Word64) : Pairing :=
  let a := (selectAnchor x.anchors p).1
  let d := signedDiff r c a.pc
  { candidate := { pc := c, position := p, base := c % 5, origin := .slate },
    slip := (a.position.toNat : Int) + d * x.speedRatio - p.toNat, origin := a.origin }

/-- R114: the pairing of a sound member, with clap point (c, φ), the header's local position and its clap offset. -/
def soundPairing (r : Rate) (x : Source) (point : Stamp) (p : Word64) (offset : Nat) : Pairing :=
  let position := p + BitVec.ofNat 64 offset
  let a := (selectAnchor x.anchors position).1
  let d := signedDiff r point.count a.pc
  let o := point.frac * samplesPerFrame r x.sampleRate (cadencePosition a.base d) / r.period
  let at0 := if o ≤ position.toNat then position - BitVec.ofNat 64 o else Config.candidatePosition position o
  { candidate := { pc := point.count, position := at0, base := point.count % 5, origin := .slate },
    slip := (a.position.toNat : Int) + span r x.sampleRate a.base d + o - position.toNat, origin := a.origin }

/-- R115: the coarse limit of a member. -/
def Source.coarseLimit (x : Source) : Nat :=
  match x.kind with
  | .camera | .slate => 250
  | .sound => 48000 * x.sampleRate.multiplier

/-- R115: the fine threshold of a member, by the steps of S6. -/
def State.slipThreshold (s : State) (x : Source) : Nat :=
  match x.kind with
  | .camera | .slate => [1, 2, 3, 4, 6, 8, 12, 16].getD s.cameraStep 0
  | .sound => [8, 16, 48, 96, 240, 480, 960, 2000].getD s.soundStep 0 * x.sampleRate.multiplier

/-- R116: a slip saturated to the signed 32-bit range. -/
def saturate32 (x : Int) : Int :=
  if x < -2147483648 then -2147483648 else if 2147483647 < x then 2147483647 else x

/-- R116: a SLIP report. -/
def State.slipReport (s : State) (n : Fin 32) (g : Fin 8) (p : Pairing) (o : SlipOutcome) : State :=
  s.report .slip n.val (int64 (saturate32 p.slip)) (byteWord [o.code, g.val, p.origin.code])

/-- R115, R116: the outcome of a pairing. -/
def State.judgeSlip (s : State) (n : Fin 32) (g : Fin 8) (p : Pairing) : State :=
  let x := s.sources[n]
  if (x.coarseLimit : Int) < p.slip.natAbs then (s.slipReport n g p .coarse).fault n .slipCoarse
  else if (s.slipThreshold x : Int) < p.slip.natAbs then
    if s.slipAdopt then (s.addAnchor n p.candidate).slipReport n g p .adopted
    else s.slipReport n g p .rejected
  else s.addAnchor n p.candidate

/-- R112: a stamped CLAP header of a CAMERA or SOUND source: paired when its group's match is OPEN and expects the
source unmatched. The member is marked matched whatever the outcome, and a match with none unmatched closes (R117). -/
def State.pairClap (s : State) (n : Fin 32) (beat : Beat) : State :=
  let x := s.sources[n]
  match x.group with
  | none   => s
  | some g =>
    match s.claps[g] with
    | none   => s
    | some c =>
      if c.expected.contains (n, false) then
        let p := match x.kind with
          | .sound => soundPairing s.rate x c.point (headerPosition beat) (headerClapOffset beat)
          | .camera | .slate => cameraPairing s.rate x c.point.count (headerPosition beat)
        let c := { c with expected := c.expected.map fun (e : Fin 32 × Bool) => if e.1 = n then (n, true) else e }
        (s.putClap g c.orComplete).judgeSlip n g p
      else s

/-! ### Lateness -/

/-- R119: the lateness of a stamped header: how many frames after its picture it arrived, less the latency of a camera
or sound source. -/
def Source.lateness (x : Source) (r : Rate) (arrivalPc count : Nat) : Int :=
  match x.kind with
  | .camera | .sound => signedDiff r arrivalPc count - x.latency
  | .slate => signedDiff r arrivalPc count

/-- R120: whether the edge setting selects a change of the latched state. -/
def LateEdge.selects (e : LateEdge) (late : Bool) : Bool :=
  match e with
  | .enter => late
  | .leave => !late
  | .both  => true

/-- R120, R188: the first detail word of a LATE_CHANGE report: the latched state at byte 0 and L, signed, in bytes 4 to
7. An L that does not fit 32 bits is left open (log entry 10). -/
def lateWord (late : Bool) (l : Int) : Nat :=
  let w : BitVec 32 := if -2147483648 ≤ l ∧ l ≤ 2147483647 then BitVec.ofInt 32 l else Config.lateWord l
  flagNat late + 4294967296 * w.toNat

/-- R120: while the monitor is on, a LATE condition that differs from the latched state changes it, with a LATE_CHANGE
report if the edge selects the change, and the source's beat is rewritten. -/
def State.lateChange (s : State) (n : Fin 32) (l : Int) (arrivalPc count : Nat) : State :=
  let x := s.sources[n]
  let m := x.lateMonitor
  let late := decide ((m.threshold : Int) < l)
  if m.on && late != m.late then
    let s := s.putSource n { x with lateMonitor := { m with late } }
    let s := if m.edge.selects late then s.reportAt arrivalPc .lateChange n.val (lateWord late l) count else s
    s.mark (sourcePart n)
  else s

end Sys2Proof.Machine
end

