-- ==== Sys2Proof/Machine/Headers.lean ====
section
/-! DEFINITION. Capture writes, beat by beat (R8): the checks and judgement of a header candidate (R68 to R74), taking
a header into its slot (R86, R87), data beats (R89), waiting headers (R88, R78), and pins falling to 0 (R92, R81). -/

namespace Sys2Proof.Machine

/-! ### Checks (R69) -/

/-- R69, R186: the identity bytes whose flag is compare are equal. Bit i of the mask compares byte i. -/
def identityMatches (mask : BitVec 8) (a b : Word64) : Bool :=
  (List.range 8).all fun i => !mask.getLsbD i || a.extractLsb' (8 * i) 8 == b.extractLsb' (8 * i) 8

/-- R69: the record has a take key and the header's differs from it. -/
def Source.keyDiffers (x : Source) (beat : Beat) : Bool :=
  match x.takeKey with
  | some k => headerKey beat != k
  | none   => false

/-- R69: there is a previous header and the header's local position is not greater than its. -/
def Source.outOfOrder (x : Source) (beat : Beat) : Bool :=
  match x.previous with
  | some h => !decide (h.position < headerPosition beat)
  | none   => false

/-- R69: the first check that fails gives the reject reason. -/
def Source.check (x : Source) (beat : Beat) : Judgement :=
  if headerLead beat ≠ leadPattern then .rejected .lead
  else if !identityMatches x.matchMask (headerIdentity beat) x.identity then .rejected .identity
  else if x.keyDiffers beat then .rejected .key
  else if x.state = .live ∧ x.outOfOrder beat then .rejected .order
  else .accepted

/-- R73: the amount the local position advances from one buffer to the next. -/
def Source.quantum (x : Source) : Nat :=
  match x.kind with
  | .camera | .slate => 1
  | .sound => x.samplesPerBuffer

/-- R97: the gap size of a header against the previous header; 0 when GAP is not set. -/
def Source.gapOf (x : Source) (p : Word64) : Nat :=
  match x.previous with
  | none   => 0
  | some h => min (p.toNat - h.position.toNat - x.quantum) 4294967295

/-- R73: whether a candidate continues the qualification run. -/
def Source.continues (x : Source) (slot : Nat) (p : Word64) : Bool :=
  match x.previous with
  | none   => false
  | some h => slot == (h.slot + 1) % x.slotCount && p == h.position + BitVec.ofNat 64 x.quantum

/-! ### Stamps -/

/-- R93 to R96: the stamp of a header of a LIVE source, and whether it lies before every anchor. -/
def Source.stampOf (x : Source) (r : Rate) (p : Word64) (arrivalPc arrivalPhase : Nat) : Stamp × Bool :=
  match x.kind with
  | .slate => (slateStamp r arrivalPc arrivalPhase x.latencyTicks, false)
  | .camera =>
    let a := selectAnchor x.anchors p
    (cameraStamp r a.1.pc x.speedRatio (positionDiff p a.1.position), a.2)
  | .sound =>
    let a := selectAnchor x.anchors p
    (soundStamp r x.sampleRate a.1.pc a.1.base (positionDiff p a.1.position), a.2)

/-! ### Taking a header into its slot (R87) -/

/-- R87: the slot record of a fill that begins: FILLING, beats counted 1. -/
def Slot.fillWith (y : Slot) (stamp : Option Stamp) (f : Fill) : Slot :=
  { y with state := .filling, stamp, beats := 1, waiting := none, fill := some f, kind := none }

/-- The fill record of a header; the ROLL flag is read for slates only (R186). -/
def Source.fillOf (x : Source) (beat : Beat) (flags : StampFlags) (gapSize : Nat) : Fill :=
  { position := headerPosition beat, clap := headerClap beat, roll := x.kind == .slate && headerRoll beat, flags, gapSize }

def StampFlags.none : StampFlags :=
  { beforeAnchor := false, gap := false, late := false, early := false }

/-- R87: a slot whose beats counted equal the buffer length after the header completes FULL at once. -/
def State.completeIfFull (s : State) (n : Fin 32) (slot : Nat) : State :=
  let x := s.sources[n]
  if (x.slot slot).state = .filling ∧ x.bufferLength ≤ (x.slot slot).beats then s.completeSlot n slot .full else s

/-- R97, R72: what a stamped header is handed on to: a CLAP header of a camera or sound source to the clap match of its
group, a CLAP record of a slate opens a match, a ROLL record goes to the group table. R72 does not hand on the flags of a
slate header that is examined while its source is QUALIFYING; R68 reads the state at the moment the beat is examined, so
the header at which a slate becomes LIVE is one of these, though R74 has it stamped (DEDUCED, log entry 37). -/
def State.handOn (s : State) (n : Fin 32) (beat : Beat) (st : Stamp) (examinedLive : Bool) : State :=
  match s.sources[n].kind with
  | .camera | .sound => if headerClap beat then s.pairClap n beat else s
  | .slate =>
    let s := if examinedLive && headerClap beat then s.openClap n st else s
    if examinedLive && headerRoll beat then s.rollRecord n else s

/-- R87, R97, R119: an accepted header of a LIVE source is taken into its slot and stamped. The beat is answered with
its stamp area written. `examinedLive` says whether the source was LIVE already when the header was examined (log
entry 37). -/
def State.takeStamped (s : State) (n : Fin 32) (slot : Nat) (beat : Beat) (examinedLive : Bool)
    (gapSize arrivalPc arrivalPhase : Nat) : State × Beat :=
  let x := s.sources[n]
  let st := x.stampOf s.rate (headerPosition beat) arrivalPc arrivalPhase
  let l := x.lateness s.rate arrivalPc st.1.count
  let flags : StampFlags := { beforeAnchor := st.2, gap := gapSize != 0, late := decide ((x.lateMonitor.threshold : Int) < l),
                              early := decide (l < 0) }
  let y := (x.slot slot).fillWith (some st.1) (x.fillOf beat flags gapSize)
  let s := (s.putSource n { x.withSlot slot y with lastStamp := some st.1 }).mark (sourcePart n)
  let s := s.lateChange n l arrivalPc st.1.count
  let s := s.completeIfFull n slot
  (s.handOn n beat st.1 examinedLive, stampedBeat beat st.1 flags)

/-- R87: a header that is not stamped is taken into its slot. -/
def State.takeUnstamped (s : State) (n : Fin 32) (slot : Nat) (beat : Beat) : State :=
  let x := s.sources[n]
  let y := (x.slot slot).fillWith none (x.fillOf beat StampFlags.none 0)
  (s.putSlot n slot y).completeIfFull n slot

/-- R87, R88: a judged header is taken into its slot, by its judgement and the source's state. -/
def State.takeHeader (s : State) (n : Fin 32) (slot : Nat) (beat : Beat) (j : Judgement) (examinedLive : Bool)
    (gapSize arrivalPc arrivalPhase : Nat) : State × Beat :=
  match j with
  | .rejected r => (s.takeUnstamped n slot beat, rejectedBeat beat r)
  | .accepted =>
    if s.sources[n].state = .live then s.takeStamped n slot beat examinedLive gapSize arrivalPc arrivalPhase
    else (s.takeUnstamped n slot beat, qualifyingBeat beat)

/-! ### The judgement's effects on the source (R70 to R74) -/

/-- R70: a reject is counted and reported. -/
def State.countReject (s : State) (n : Fin 32) (slot : Nat) (beat : Beat) (r : RejectReason) : State :=
  let x := s.sources[n]
  let s := s.putSource n { x with rejects := x.rejects + 1 }
  (s.report .headerReject n.val (byteWord [r.code, slot]) (field beat 16 4)).mark (sourcePart n)

/-- R71: after a reject at the limit, a LIVE source becomes FAULTED; a QUALIFYING one begins its run again. -/
def State.rejectLimit (s : State) (n : Fin 32) : State :=
  let x := s.sources[n]
  if x.rejects < x.rejectLimit then s
  else if x.state = .live then s.fault n .rejectLimit
  else if x.state = .qualifying then
    (s.putSource n { x with run := 0, rejects := 0, previous := none }).mark (sourcePart n)
  else s

/-- R74: a QUALIFYING source whose run has reached its qualify count becomes LIVE, with a QUALIFY anchor if it is a
camera or sound source that has none. -/
def State.qualify (s : State) (n : Fin 32) (beat : Beat) (arrivalPc : Nat) : State :=
  let x := s.sources[n]
  if x.state = .qualifying ∧ x.qualifyCount ≤ x.run then
    let pc := countAdd s.rate arrivalPc (-(x.latency : Int))
    let a : Anchor := { pc := pc, position := headerPosition beat, base := pc % 5, origin := .qualify }
    let anchors := if x.kind ≠ .slate ∧ x.anchors = [] then pushAnchor a x.anchors else x.anchors
    (s.putSource n { x with state := .live, anchors := anchors }).sourceState n .qualifying .live .qualified
  else s

/-- R72, R73: an accepted header clears the reject count, in QUALIFYING moves the run, and becomes the previous
header. -/
def State.countAccept (s : State) (n : Fin 32) (slot : Nat) (beat : Beat) : State :=
  let x := s.sources[n]
  let p := headerPosition beat
  let run := if x.state = .qualifying then (if x.continues slot p then x.run + 1 else 1) else x.run
  let s1 := s.putSource n { x with rejects := 0, run, previous := some { position := p, slot } }
  if x.rejects = 0 then s1 else s1.mark (sourcePart n)

/-! ### Examination (R8, R68, R86) -/

/-- What the examination of a beat answers: the beat as it is forwarded, or a header that waits (R86). -/
inductive Examined
  | forward (beat : Beat)
  | waits
  deriving DecidableEq, Repr

/-- The arrival of a request: its number, initiator, and the picture count and phase standing when it was taken (R1). -/
structure Arrival where
  request   : Nat
  initiator : Fin 64
  pc        : Nat
  phase     : Nat
  deriving DecidableEq, Repr

/-- R86: the slot map receives a judged header. The FILLING slot completes SHORT; then the header waits on a pinned
slot, which becomes RECLAIM, or is taken at once. -/
def State.judged (s : State) (n : Fin 32) (slot : Nat) (a : Arrival) (beat : Beat) (addr : Nat) (j : Judgement)
    (examinedLive : Bool) (gapSize : Nat) (rest : List WriteBeat) : State × Examined :=
  let s := s.completeFilling n .short
  let y := s.sources[n].slot slot
  if 0 < y.pins then
    let w : Waiting := { request := a.request, initiator := a.initiator, beat := beat, addr := addr, judgement := j,
                         examinedLive := examinedLive, gapSize := gapSize, arrivalPc := a.pc, arrivalPhase := a.phase, rest := rest }
    ((s.putSlot n slot { y with state := .reclaim, waiting := some w }).park a.initiator a.request, .waits)
  else
    let r := s.takeHeader n slot beat j examinedLive gapSize a.pc a.phase
    (r.1, .forward r.2)

/-- R69 to R74: a header candidate of a QUALIFYING or LIVE source. -/
def State.candidate (s : State) (n : Fin 32) (slot : Nat) (a : Arrival) (beat : Beat) (addr : Nat)
    (rest : List WriteBeat) : State × Examined :=
  let x := s.sources[n]
  match x.check beat with
  | .rejected r =>
    let m := (s.countReject n slot beat r).judged n slot a beat addr (.rejected r) (x.state == .live) 0 rest
    (m.1.rejectLimit n, m.2)
  | .accepted =>
    let gapSize := x.gapOf (headerPosition beat)
    ((s.countAccept n slot beat).qualify n beat a.pc).judged n slot a beat addr .accepted (x.state == .live) gapSize rest

/-- R89: a data beat that falls in the FILLING slot of its source is counted, and completes it FULL at its length. -/
def State.dataBeat (s : State) (n : Fin 32) (slot : Nat) : State :=
  let x := s.sources[n]
  let y := x.slot slot
  if y.state = .filling then (s.putSlot n slot { y with beats := y.beats + 1 }).completeIfFull n slot else s

/-- The slot index of an address in a source's ring, and the beat offset within the slot (R8). -/
def Source.place (x : Source) (addr : Nat) : Nat × Nat :=
  let beat := (addr - x.ringBase) / 64
  (beat / x.bufferLength, beat % x.bufferLength)

/-- R8, R64, R68: one beat of a capture write is examined, by the state its source has at that moment. -/
def State.examineBeat (s : State) (n : Fin 32) (a : Arrival) (addr : Nat) (b : WriteBeat) (rest : List WriteBeat) :
    State × Examined :=
  let x := s.sources[n]
  let p := x.place addr
  let isCandidate := p.2 = 0 ∧ b.enables = allEnables
  match x.state with
  | .qualifying | .live =>
    if isCandidate then s.candidate n p.1 a b.data addr rest else (s.dataBeat n p.1, .forward b.data)
  | .faulted => (s, .forward (if isCandidate then rejectedBeat b.data .sourceFaulted else b.data))
  | .closing | .empty => (s, .forward b.data)

/-- R8: the beats of a capture write in ascending order, up to a header that waits: the beats forwarded, and whether
the examination stopped at a waiting header. -/
def State.examine (s : State) (n : Fin 32) (a : Arrival) (addr : Nat) : List WriteBeat → State × List WriteBeat × Bool
  | [] => (s, [], false)
  | b :: bs =>
    match s.examineBeat n a addr b bs with
    | (s, .waits) => (s, [], true)
    | (s, .forward d) =>
      let r := s.examine n a (addr + 64) bs
      (r.1, { b with data := d } :: r.2.1, r.2.2)

/-- R8, R11, R152: a part of a capture request joins the forwarded stream as one transaction, ahead of the reads that
its examination released, which stand in `released`. -/
def State.joinPart (s : State) (before : List Transaction) (request addr : Nat) (part : List WriteBeat) : State :=
  let released := s.stream
  let s := { s with stream := before }
  let s := if part.isEmpty then s
    else (s.join (.capture request) addr (.write part)).updateTaken request fun t => { t with parts := t.parts + 1 }
  { s with stream := s.stream ++ released }

/-- R8: the beats of a request from an address on are examined and forwarded, `lead` being beats already examined that
go before them in the same part. -/
def State.examinePart (s : State) (n : Fin 32) (a : Arrival) (addr : Nat) (lead : List WriteBeat) (bs : List WriteBeat)
    (before : List Transaction) : State :=
  let r := s.examine n a addr bs
  let s := r.1.joinPart before a.request (addr - 64 * lead.length) (lead ++ r.2.1)
  s.updateTaken a.request fun t => { t with forming := r.2.2 }

/-! ### Releases (R78, R88, R92, R81) -/

/-- R78, R88: a waiting header is released. It is taken into its slot if the source is QUALIFYING or LIVE, marked
REJECTED if FAULTED, passed as it stands if CLOSING or EMPTY; the rest of its request is then examined. -/
def State.releaseWaiting (s : State) (n : Fin 32) (slot : Nat) (w : Waiting) : State :=
  let before := s.stream
  let s := { s with stream := [] }.unpark w.initiator
  let x := s.sources[n]
  let r : State × Beat := match x.state with
    | .live | .qualifying =>
      (s.putSlot n slot { x.slot slot with waiting := none }).takeHeader n slot w.beat w.judgement w.examinedLive w.gapSize
        w.arrivalPc w.arrivalPhase
    | .faulted => (s.putSlot n slot Slot.free, rejectedBeat w.beat .sourceFaulted)
    | .closing | .empty => (s.putSlot n slot Slot.free, w.beat)
  r.1.examinePart n { request := w.request, initiator := w.initiator, pc := w.arrivalPc, phase := w.arrivalPhase }
    (w.addr + 64) [fullBeat r.2] w.rest before

/-- R81: a CLOSING source becomes EMPTY. In this order: its slots, anchors, clap match and membership are given up, the
SOURCE_STATE report, the bindings lost, and the completion of its SOURCE_CLOSE, if that is still PENDING (R171).
Of the changed parts only the source's own is rewritten before that status record (log entry 42). -/
def State.becomeEmpty (s : State) (n : Fin 32) : State :=
  let x := s.sources[n]
  let s := (List.finRange 8).foldl (fun s g => s.unexpect g n) s
  let s := (s.putSource n Source.empty).sourceState n .closing .empty .closed
  let s := s.loseBindings n
  match (List.finRange 16).find? (fun k => match s.slots[k] with
      | .pending rec _ => commandCode rec == 7 && field rec 8 1 == n.val
      | .idle | .done | .refused => false) with
  | some k => (s.rewrite (sourcePart n)).completePending k .done s.pc x.slotCount 0
  | none   => s

/-- R81: a CLOSING source becomes EMPTY at the event that leaves it drained. -/
def State.emptyIfDrained (s : State) (n : Fin 32) : State :=
  if s.sources[n].drained then s.becomeEmpty n else s

/-- R92: what follows when a slot's pin count has reached 0: a RECLAIM slot releases its waiting header or becomes FREE,
and a CLOSING source may become EMPTY. -/
def State.pinZero (s : State) (n : Fin 32) (slot : Nat) : State :=
  let y := s.sources[n].slot slot
  let s := match y.state, y.waiting with
    | .reclaim, some w => s.releaseWaiting n slot w
    | .reclaim, none   => s.putSlot n slot Slot.free
    | .free, _ | .filling, _ | .complete, _ => s
  s.emptyIfDrained n

/-- R92: the pin count of a slot decreases by 1. -/
def State.unpin (s : State) (n : Fin 32) (slot : Nat) : State :=
  let y := s.sources[n].slot slot
  let s := s.putSlot n slot { y with pins := y.pins - 1 }
  if y.pins = 1 then s.pinZero n slot else s

end Sys2Proof.Machine
end

