-- ==== Sys2Proof/WellFormed.lean ====
section
/-! DEFINITION. What a command must be to be one the links and the lines can carry: an address that is a multiple of
64 and a length of 1 to 16 beats (R1), an answer of at most 16 data beats (R3), a timecode word of one byte a field
(R58, R185), a slot index below 64 (R84), an offset that is a beat of the 1 MiB control window (R4). -/

namespace Sys2Proof

/-- The number of beats of an access. -/
def Access.length : Access → Nat
  | .read n   => n
  | .write bs => bs.length

/-- R1: the address is a multiple of 64 and the length lies in 1..16 beats. -/
def Request.wf (r : Request) : Bool :=
  r.addr.toNat % 64 == 0 && decide (1 ≤ r.access.length) && decide (r.access.length ≤ 16)

/-- R3: an answer carries the data of at most 16 beats. -/
def StoreResponse.wf : StoreResponse → Bool
  | .okay data => decide (data.length ≤ 16)
  | .fault     => true

/-- R58: each field of a timecode word is one byte. -/
def TimecodeWord.wf (w : TimecodeWord) : Bool :=
  decide (w.hours < 256) && decide (w.minutes < 256) && decide (w.seconds < 256) && decide (w.frames < 256)

/-- The check of a command's operands, constructor by constructor. -/
def Instr.wf : Instr → Bool
  | .powerOn _ _ => true
  | .resetAssert _ => true
  | .resetRelease _ _ => true
  | .systemLinkOpen => true
  | .requestTaken _ r => r.wf
  | .heldReadRelease _ slot => decide (slot < 64)
  | .heldDeadline _ => true
  | .arbiterChoice _ => true
  | .ownWriteAgeLimit => true
  | .offeredWriteJoin => true
  | .forwardedResponse _ _ r => r.wf
  | .redirectedReadResponse _ _ r => r.wf
  | .waitingHeaderRelease _ slot => decide (slot < 64)
  | .sourceBecomesEmpty _ => true
  | .slugReadResponse _ _ r => r.wf
  | .ownWriteResponse _ _ _ => true
  | .frameBoundary => true
  | .fpoFall => true
  | .markerPartEnd _ => true
  | .refPulse _ => true
  | .acquireDeadline => true
  | .missingPulse => true
  | .timecodeWord _ w => w.wf
  | .settingsWrite _ _ _ => true
  | .consumerWrite _ _ _ => true
  | .controlWriteIgnored _ offset _ _ => offset % 64 == 0 && decide (offset < 1048576)
  | .timebaseSet _ _ _ => true
  | .timePreset _ _ _ => true
  | .jamMode _ _ _ => true
  | .referenceEnable _ _ _ => true
  | .referenceDisable _ _ _ => true
  | .sourceOpen _ _ _ => true
  | .sourceRequalify _ _ _ => true
  | .sourceClose _ _ _ => true
  | .lateMonitor _ _ _ => true
  | .anchorSet _ _ _ => true
  | .indexSet _ _ _ => true
  | .groupSet _ _ _ => true
  | .takeArm _ _ _ => true
  | .takeStop _ _ _ => true
  | .takeAbandon _ _ _ => true
  | .windowOpen _ _ _ => true
  | .windowCue _ _ _ => true
  | .windowClose _ _ _ => true
  | .markerSet _ _ _ => true
  | .markerFire _ _ _ => true
  | .markerStop _ _ _ => true
  | .attentionAck _ _ _ => true
  | .restart _ _ _ => true
  | .commandUnknown _ _ _ => true
  | .restartDrainEnd => true
  | .collision _ _ _ => true

end Sys2Proof
end

