-- ==== Sys2Proof/Machine/Requests.lean ====
section
/-! DEFINITION. The path switch: the classes of requests (R4, R5), when a presented request is taken (R2, R146), and
what is done with it (R6 to R9). -/

namespace Sys2Proof

/-- The first byte of a request's span (R4). -/
def Request.start (r : Request) : Nat := r.addr.toNat

/-- The length of a request's span in bytes. -/
def Request.bytes (r : Request) : Nat := r.access.length * 64

def Access.isWrite : Access → Bool
  | .write _ => true
  | .read _  => false

end Sys2Proof

namespace Sys2Proof.Machine

/-- Whether the span of `l` bytes from `a` lies whole in the span of `m` bytes from `b`. -/
def spanInside (a l b m : Nat) : Bool :=
  decide (b ≤ a) && decide (a + l ≤ b + m)

/-- Whether two spans share a byte. -/
def spansOverlap (a l b m : Nat) : Bool :=
  decide (a < b + m) && decide (b < a + l)

/-- The span of an OPEN window (R138). -/
def State.windowMeets (s : State) (w : Fin 8) (p : Window → Bool) : Bool :=
  match s.windows[w] with
  | some x => p x
  | none   => false

/-- The length of a source's ring in bytes (R65). -/
def Source.ringBytes (x : Source) : Nat := x.slotCount * x.bufferLength * 64

/-- R4: whether a source examines a write: its initiator, its state, and the whole span in its ring. -/
def Source.captures (x : Source) (r : Request) : Bool :=
  x.state != .empty && x.initiator == r.initiator && spanInside r.start r.bytes x.ringBase x.ringBytes

/-- R4, R5: the class of a presented request. -/
def State.classify (s : State) (r : Request) : RequestClass :=
  if addressEnd < r.start + r.bytes then .refused
  else if spanInside r.start r.bytes s.controlBase controlLength then .control
  else match (List.finRange 8).find? (fun w => s.windowMeets w fun x => spanInside r.start r.bytes x.base x.length) with
  | some w => .window w
  | none =>
    if spansOverlap r.start r.bytes s.controlBase controlLength ||
        (List.finRange 8).any (fun w => s.windowMeets w fun x => spansOverlap r.start r.bytes x.base x.length) then .refused
    else if r.access.isWrite then
      match (List.finRange 32).find? (fun n : Fin 32 => s.sources[n].captures r) with
      | some n => .capture n
      | none   => .plain
    else .plain

def RequestClass.isWindow : RequestClass → Bool
  | .window _ => true
  | .refused | .control | .capture _ | .plain => false

/-- R2: the conditions that keep a presented request from being taken, but for the redirect table: start-up, RST_N, the
full own-write queue, a park flag, a RESTART drain. -/
def State.admits (s : State) (r : Request) : Bool :=
  s.rstn && s.linkOpen && decide (s.ownQueue.length < 32) && s.parks[r.initiator].isNone &&
    !((s.classify r).isWindow && s.drain.isSome)

/-- R2: whether a presented request is a WINDOW read that needs a redirect entry. -/
def State.needsRedirect (s : State) (r : Request) : Bool :=
  match s.classify r, r.access with
  | .window w, .read _ => s.windowMeets w fun x => match s.readOutcome x with
    | .redirect _ => true
    | .slug _ | .hold _ | .listFull => false
  | _, _ => false

/-- R2: whether none of the conditions of R2 holds for a presented request. -/
def State.couldTake (s : State) (r : Request) : Bool :=
  s.admits r && (!s.needsRedirect r || decide (s.redirects.length < 32))

/-- R2, R146: whether a presented request waits for a redirect entry, all 32 being in use. -/
def State.waitsForEntry (s : State) (r : Request) : Bool :=
  s.admits r && s.needsRedirect r && decide (32 ≤ s.redirects.length)

/-- Whether an initiator presents a request. -/
def State.presents (s : State) (i : Fin 64) : Bool :=
  s.presented.any fun r => r.initiator == i

/-- R146: the initiators whose WINDOW reads wait, in the order in which they began waiting. One that waited keeps its place
while its request stays presented; those that begin to wait at one event follow in the order of their presenting (log
entry 29). -/
def State.waitOrder (s : State) : List (Fin 64) :=
  let old := s.waiting.filter s.presents
  old ++ (s.presented.filter fun r => s.waitsForEntry r && !old.contains r.initiator).map Request.initiator

/-- R146: whether every read that began waiting before a request has been decided, and stays presented for a condition of
its own. A request that does not wait stands behind all that do. -/
def State.hasTurn (s : State) (r : Request) : Bool :=
  (s.waitOrder.takeWhile fun i => i != r.initiator).all fun i =>
    !s.presented.any fun q => q.initiator == i && s.couldTake q

/-- R2, R146: whether a presented request is taken now. The reads that have waited for a redirect entry are decided in the
order in which they began waiting, whatever their outcome then is, and before any other read that takes an entry. -/
def State.canTake (s : State) (r : Request) : Bool :=
  s.couldTake r && (!(s.needsRedirect r || s.waitOrder.contains r.initiator) || s.hasTurn r)

/-- The accept indication of an initiator (R1): high while its presented request can be taken. -/
def State.accept (s : State) (i : Fin 64) : Bool :=
  s.presented.any fun r => r.initiator == i && s.canTake r

/-- R2: an initiator presents a request and leaves it presented; it presents one at a time. -/
def State.present (s : State) (r : Request) : State :=
  if s.presents r.initiator then s else { s with presented := s.presented ++ [r] }

/-- R1, R6 to R9: a request is taken whole, at its arrival. -/
def State.take (s : State) (r : Request) : State :=
  let id := s.nextId
  let t : Taken := { request := id, initiator := r.initiator, parts := 0, forming := false, faulted := false, answer := none }
  let s1 : State := { s with
    presented := s.presented.filter (fun q => q.initiator != r.initiator), nextId := id + 1,
    outstanding := s.outstanding ++ [t] }
  match s.classify r with
  | .refused => s1.answer id .fault
  | .control => s1.join (.control id) r.start r.access
  | .plain => s1.join (.plain id) r.start r.access
  | .window w =>
    match s1.windows[w], r.access with
    | some x, .read n => s1.windowRead w x r.initiator id (r.start - x.base) n
    | some _, .write _ | none, _ => s1.answer id .fault
  | .capture n =>
    match r.access with
    | .write bs =>
      ({ s1 with stream := [] }).examinePart n { request := id, initiator := r.initiator, pc := s.pc, phase := s.phase }
        r.start [] bs s1.stream
    | .read _ => s1.join (.plain id) r.start r.access

/-- REQUEST_TAKEN: the request an initiator presents is decided, and taken if R2 lets it. -/
def State.requestTaken (s : State) (r : Request) : State :=
  let s := s.present r
  match s.presented.find? (fun q => q.initiator == r.initiator) with
  | some q => if s.canTake q then s.take q else s
  | none   => s

end Sys2Proof.Machine
end

