-- ==== Sys2Proof/Machine/Restart.lean ====
section
/-! DEFINITION. RESTART and its drain (R20, R171 to R173). -/

namespace Sys2Proof.Machine

/-- The number of sources that are not EMPTY. -/
def State.openSources (s : State) : Nat :=
  ((List.finRange 32).filter fun n => s.sources[n].state != .empty).length

/-- R173 step 1: every source EMPTY, every clap match CLOSED, every group cleared, every window CLOSED, every marker
line low with trigger NONE. -/
def State.clearConfiguration (s : State) : State :=
  { s with
    sources := Vector.replicate 32 Source.empty, claps := Vector.replicate 8 none,
    groups := Vector.replicate 8 Group.initial, windows := Vector.replicate 8 none,
    markers := Vector.replicate 4 Marker.initial }

/-- R173: the drain ends. Clearing, then the flags and the source, group and window parts, then the completion of the
RESTART, then the START report and the header beat; WINDOW requests are taken again. -/
def State.drainEnd (s : State) (slot : Fin 16) : State :=
  let emptied := s.openSources
  let s := s.clearConfiguration
  let s := s.raise fun _ => EventFlags.clear
  let s := (List.range 48).foldl State.mark s
  let s := s.rewriteParts fun n => decide (n < 48)
  let s := { s with drain := none }.completePending slot .done s.pc emptied 0
  let s := s.report .start 0 StartKind.restart.code emptied
  ({ s with startKind := .restart }.mark headerPart).rewrite headerPart

/-- R173: the drain ends at the event that leaves the redirect table empty. -/
def State.endDrainIfEmpty (s : State) : State :=
  match s.drain with
  | some slot => if s.redirects.isEmpty then s.drainEnd slot else s
  | none      => s

/-- R171 step 1: every PENDING slot completes with ABORTED_RESTART, in ascending slot order, with PC and result words
0; a pending preset is discarded, and no group completes a stop command later. -/
def State.abortPending (s : State) : State :=
  let s := (List.finRange 16).foldl (fun s k => s.completePending k .abortedRestart 0 0 0) s
  (List.finRange 8).foldl (fun s g => s.putGroup g { s.groups[g] with stopCommand := none }) { s with preset := none }

/-- R157: every entry of the held-read list is answered with slug, in arrival order. -/
def State.slugAllHeld (s : State) : State :=
  s.held.foldl State.slugHeld s

/-- R171: RESTART is taken; with the redirect table empty, the drain ends at the same event. -/
def State.runRestart (s : State) (slot : Fin 16) (rec : Beat) : State :=
  let s := s.abortPending.slugAllHeld
  ({ s with drain := some slot }.makePending slot rec).endDrainIfEmpty

end Sys2Proof.Machine
end

