-- ==== Sys2Proof/Machine/Links.lean ====
section
/-! DEFINITION. The store link: the arbiter's choice (R13), own writes and their responses (R14, R17, R19, R179), and
the responses to forwarded transactions and own reads (R6, R8, R9, R148, R149). -/

namespace Sys2Proof.Machine

/-! ### The arbiter (R13) -/

/-- R13, R14: the oldest own write is issued and leaves the queue, and the oldest offered own write joins it. -/
def State.issueOwn (s : State) : State :=
  match s.ownQueue with
  | [] => s
  | w :: ws =>
    let i : OwnIssued := { tag := s.nextId, write := w }
    ({ s with ownQueue := ws, inFlightOwn := s.inFlightOwn ++ [i], nextId := s.nextId + 1 }).joinOffered

/-- R12: the oldest transaction of the forwarded stream is issued. -/
def State.issueForwarded (s : State) : State :=
  match s.stream with
  | [] => s
  | t :: ts => { s with stream := ts, inFlight := s.inFlight ++ [t] }

/-- R13 rule 2: the oldest own write has been in the queue longer than the age limit, at 27 ticks per µs. -/
def State.ownOverAge (s : State) : Bool :=
  match s.ownQueue with
  | w :: _ => decide (s.ageLimit * 27 < s.now - w.joined)
  | []     => false

/-- R13: the store link can take a transaction and the arbiter chooses one; with none ready it stays idle. -/
def State.arbiterChoice (s : State) : State :=
  if s.highMark ≤ s.ownQueue.length then s.issueOwn
  else if s.ownOverAge then s.issueOwn
  else if !s.stream.isEmpty then s.issueForwarded
  else s.issueOwn

/-! ### Responses -/

def Cargo.isForwarded : Cargo → Bool
  | .control _ | .capture _ | .plain _ => true
  | .redirected _ | .slug _ => false

def Cargo.isRedirected : Cargo → Bool
  | .redirected _ => true
  | .control _ | .capture _ | .plain _ | .slug _ => false

def Cargo.isSlug : Cargo → Bool
  | .slug _ => true
  | .control _ | .capture _ | .plain _ | .redirected _ => false

def Cargo.request : Cargo → Nat
  | .control r | .capture r | .plain r | .redirected r | .slug r => r

/-- R3: the issued transaction that a response answers, if it is of the kind that `p` selects. A response to nothing
issued is discarded (R18). -/
def State.issued (s : State) (tag : Nat) (p : Cargo → Bool) : Option Transaction :=
  s.inFlight.find? fun t => t.tag == tag && p t.cargo

def State.retire (s : State) (tag : Nat) : State :=
  { s with inFlight := s.inFlight.filter fun t => t.tag != tag }

/-- R6: the beats of a CONTROL WRITE with their offsets in the control window. -/
def controlBeats (offset : Nat) : List WriteBeat → List ControlBeat
  | []      => []
  | b :: bs => { offset, data := b.data, enables := b.enables } :: controlBeats (offset + 64) bs

/-- R6: a CONTROL WRITE that the store link answers OKAY is handed to the command unit. -/
def State.handControl (s : State) (t : Transaction) (r : StoreResponse) : State :=
  match t.access, r with
  | .write bs, .okay _ => { s with inbox := s.inbox ++ controlBeats (t.addr - s.controlBase) bs }
  | .write _, .fault | .read _, .okay _ | .read _, .fault => s

/-- R8: a part of a capture write is answered. -/
def State.partAnswered (s : State) (request : Nat) (r : StoreResponse) : State :=
  (s.updateTaken request fun t =>
    { t with parts := t.parts - 1, faulted := t.faulted || decide (r = .fault) }).answerCapture request

/-- FORWARDED_RESPONSE: a response to a forwarded transaction (R6, R8, R9). -/
def State.forwardedResponse (s : State) (tag : Nat) (r : StoreResponse) : State :=
  match s.issued tag Cargo.isForwarded with
  | none   => s
  | some t =>
    let s := s.retire tag
    match t.cargo with
    | .control q => (s.handControl t r).answer q (answerOf r)
    | .capture q => s.partAnswered q r
    | .plain q | .redirected q | .slug q => s.answer q (answerOf r)

/-- REDIRECTED_READ_RESPONSE (R148): the response goes to the initiator, the entry leaves the redirect table, the slot
is unpinned with what R92 makes of it, and a drain may end (R173). A CLOSING source whose last pin falls at the response
that ends the drain becomes EMPTY under R81 first, with its report, and R173 does not count it (DESIGN CHOICE, log entry
43). -/
def State.redirectedResponse (s : State) (tag : Nat) (r : StoreResponse) : State :=
  match s.issued tag Cargo.isRedirected, s.redirects.find? (fun e => e.tag == tag) with
  | some t, some e =>
    let s := (s.retire tag).answer t.cargo.request (answerOf r)
    let s := { s with redirects := s.redirects.filter fun e => e.tag != tag }
    (s.unpin e.source e.slot).endDrainIfEmpty
  | some _, none | none, some _ | none, none => s

/-- SLUG_READ_RESPONSE (R149). -/
def State.slugResponse (s : State) (tag : Nat) (r : StoreResponse) : State :=
  match s.issued tag Cargo.isSlug with
  | none   => s
  | some t => (s.retire tag).answer t.cargo.request (answerOf r)

/-! ### Own-write responses (R17, R19, R179) -/

def OwnKind.isStartUp : OwnKind → Bool
  | .startUp _ => true
  | .statusRecord _ | .writeBack _ | .report _ | .statusPart _ | .index _ => false

/-- R179: the producer of an own write: 1 command unit, 2 report writer, 3 index writer; a start-up write takes the
producer of the same part at other times. -/
def OwnKind.producer : OwnKind → Nat
  | .statusRecord _ | .writeBack _ => 1
  | .report _ | .statusPart _ => 2
  | .index _ => 3
  | .startUp offset => if offset < settingsOffset then 2 else 1

/-- R179: the second detail word of a STORE_ERROR report. -/
def OwnKind.detail : OwnKind → Nat
  | .statusRecord n | .writeBack n | .report n | .statusPart n | .index n | .startUp n => n

/-- R17, R179: a STORE_ERROR report. -/
def State.storeError (s : State) (pc : Nat) (w : OwnWrite) : State :=
  s.reportAt pc .storeError w.kind.producer w.addr w.kind.detail

/-- R19: whether a start-up write has not been answered. -/
def State.startUpUnanswered (s : State) : Bool :=
  s.ownQueue.any (fun w => w.kind.isStartUp) || s.offered.any (fun w => w.kind.isStartUp) ||
    s.inFlightOwn.any (fun w => w.write.kind.isStartUp)

/-- R19 step 4: the system link opens, and the STORE_ERROR records of start-up writes answered FAULT are produced. -/
def State.openLink (s : State) : State :=
  s.startupFaults.foldl (fun s f => s.storeError f.pc f.write) { s with linkOpen := true, startupFaults := [] }

/-- R19 step 4: the system link opens when the store link has answered all 21 start-up writes. -/
def State.openIfStarted (s : State) : State :=
  if s.rstn && !s.linkOpen && !s.startUpUnanswered then s.openLink else s

/-- OWN_WRITE_RESPONSE (R17): OKAY needs nothing more; FAULT makes a STORE_ERROR report, for a start-up write when the
system link opens. -/
def State.ownResponse (s : State) (tag : Nat) (okay : Bool) : State :=
  match s.inFlightOwn.find? (fun w => w.tag == tag) with
  | none   => s
  | some w =>
    let s1 : State := { s with inFlightOwn := s.inFlightOwn.filter fun w => w.tag != tag }
    if w.write.kind.isStartUp then
      let f : StartupFault := { write := w.write, pc := s.pc }
      (if okay then s1 else { s1 with startupFaults := s1.startupFaults ++ [f] }).openIfStarted
    else if okay then s1
    else s1.storeError s.pc w.write

end Sys2Proof.Machine
end

