-- ==== Sys2Proof/Machine/Reference.lean ====
section
/-! DEFINITION. The reference monitor: lock states, acquisition, coarse and fine supervision, holdover (R41 to R57). -/

namespace Sys2Proof.Machine

/-- R42: the reference interval I. -/
def State.interval (s : State) : Nat := s.rate.period / s.ref.divider

/-- R43: o, the phase offset mod period. -/
def State.boundaryOffset (s : State) : Nat := (s.ref.phaseOffset % (s.rate.period : Int)).toNat

/-- R56, R52: the lock state changes, with its LOCK_STATE report; a change out of LOCKED discards the scheduled
boundaries and the last used pulse. R56 counts a SETUP in ACQUIRE, which leaves ACQUIRE standing, among the changes, so the
time beat is rewritten then too (DEDUCED, log entry 45). -/
def State.setLock (s : State) (new : LockState) (cause : LockCause) : State :=
  let old := s.lock
  let s : State := if old = .locked ∧ new ≠ .locked then { s with scheduled := [], lastUsed := none } else s
  (({ s with lock := new }).report .lockState 0 (byteWord [old.code, new.code]) cause.code).mark timePart

/-- The reference enable changes; the time beat is rewritten at a change (R183). -/
def State.setRefEnable (s : State) (b : Bool) : State :=
  if s.refEnable = b then s else ({ s with refEnable := b }).mark timePart

/-- A pulse begins an attempt: the run holds its time with a count of 0 (R44, R45, R49, R51). -/
def State.beginAttempt (s : State) : State :=
  { s with acqRun := some { previous := s.now, good := 0 } }

/-- R47: an attempt fails, `interval` being the interval that failed, none for a failure at the deadline. At the attempt
limit the state becomes FREE and the reference is disabled; otherwise the run becomes empty. -/
def State.failAttempt (s : State) (interval : Option Nat) : State :=
  let s := { s with attempts := s.attempts + 1, acqRun := none }
  if s.ref.attemptLimit ≤ s.attempts then
    let word := match interval with
      | some i => i
      | none   => 2 ^ 64 - 1
    ((s.setRefEnable false).report .referenceRejected 0 s.attempts word).setLock .free .rejected
  else s

/-- R46: the monitor enters LOCKED at a pulse taken now. The first aligned boundary is scheduled if it lies at least
half a period after the last boundary taken, and skipped otherwise. -/
def State.enterLocked (s : State) : State :=
  let first := s.now + s.boundaryOffset
  let s : State := { s with
    lastUsed := some s.now, usedNext := false, attempts := 0, acqRun := none, excursion := false,
    strict := if s.holdMark then 250 else 0, holdMark := false,
    scheduled := if s.rate.period ≤ 2 * (s.boundaryOffset + s.phase) then [first] else [] }
  s.setLock .locked .lock

/-- R45: a pulse in ACQUIRE. -/
def State.acquirePulse (s : State) : State :=
  match s.acqRun with
  | none => s.beginAttempt
  | some run =>
    let interval := s.now - run.previous
    if s.interval ≤ interval + s.ref.tolerance ∧ interval ≤ s.interval + s.ref.tolerance then
      if s.ref.lockCount ≤ run.good + 1 then s.enterLocked
      else { s with acqRun := some { previous := s.now, good := run.good + 1 } }
    else
      let s := s.failAttempt (some interval)
      if s.lock = .acquire then s.beginAttempt else s

/-- R49: the fine threshold of the step in S2, in ticks. -/
def State.fineThreshold (s : State) : Nat :=
  [27, 54, 135, 270, 540, 1350, 2700, 5400].getD s.fineStep 0

/-- R49, R50: whether the behaviour in force is RELOCK. -/
def State.relocks (s : State) : Bool :=
  s.fineRelock || (s.strictFlag && decide (0 < s.strict))

/-- R49: an excursion under RELOCK: ACQUIRE, the pulse begins an attempt and schedules no boundary. -/
def State.relock (s : State) : State :=
  (s.setLock .acquire .excursion).beginAttempt

/-- R49: an excursion under REPORT: one PHASE_EXCURSION report while the latch is CLEAN, and the latch. -/
def State.reportExcursion (s : State) (e : Int) (stray : Bool) : State :=
  let s1 := if s.excursion then s
    else s.report .phaseExcursion 0 (int64 e) (s.fineThreshold + 4294967296 * flagNat stray)
  { s1 with excursion := true }

/-- R48, R43: a used pulse that leaves the monitor LOCKED: the last used pulse, the boundary it sets, the parity. -/
def State.usePulse (s : State) : State :=
  { s with lastUsed := some s.now, scheduled := s.scheduled ++ [s.now + s.boundaryOffset], usedNext := false }

/-- R48, R49: a pulse in LOCKED, `t` ticks after the last used pulse. -/
def State.lockedPulse (s : State) (t : Nat) : State :=
  let p := s.rate.period
  let w := p / 8
  let i := s.interval
  if p - w ≤ t ∧ t ≤ p + w then
    let e : Int := (t : Int) - p
    if e.natAbs ≤ s.fineThreshold then ({ s with excursion := false }).usePulse
    else if s.relocks then s.relock
    else (s.reportExcursion e false).usePulse
  else if s.ref.divider = 2 ∧ s.usedNext = false ∧ i - i / 8 ≤ t ∧ t ≤ i + i / 8 then { s with usedNext := true }
  else if s.relocks then s.relock
  else s.reportExcursion 0 true

/-- REF_PULSE: a rising edge on REF, handled by the lock state (R44, R45, R48, R51). -/
def State.refPulse (s : State) : State :=
  match s.lock with
  | .free => if s.refEnable then (({ s with holdMark := false }).setLock .acquire .pulse).beginAttempt else s
  | .acquire => s.acquirePulse
  | .locked =>
    match s.lastUsed with
    | some u => s.lockedPulse (s.now - u)
    | none   => s
  | .holdover => (({ s with holdMark := true }).setLock .acquire .returned).beginAttempt

/-- R45: the instant at which the attempt in progress fails for want of a pulse, by the tolerance that stands (R42). A
tolerance lowered so far that this instant has gone by makes the failure due at once (DESIGN CHOICE, log entry 46). -/
def State.acquireDue (s : State) : Option Nat :=
  match s.lock, s.acqRun with
  | .acquire, some run => some (run.previous + s.interval + s.ref.tolerance)
  | .acquire, none | .free, _ | .locked, _ | .holdover, _ => none

/-- R47: the coarse deadline. -/
def State.missingDue (s : State) : Option Nat :=
  match s.lock, s.lastUsed with
  | .locked, some u => some (u + s.rate.period + s.rate.period / 8)
  | .locked, none | .free, _ | .acquire, _ | .holdover, _ => none

/-- MISSING_PULSE: the coarse deadline has come with no used pulse (R47). -/
def State.missPulse (s : State) : State :=
  ({ s with holdCount := 0 }).setLock .holdover .missingPulse

/-- R54: acquisition is started afresh, in any state but FREE. -/
def State.setupLock (s : State) : State :=
  match s.lock with
  | .free => s
  | .acquire | .locked | .holdover =>
    ({ s with acqRun := none, attempts := 0, holdMark := false }).setLock .acquire .setup

/-- R42, R54: the five reference fields take effect; a change of divider or phase offset starts acquisition afresh. -/
def State.applyRef (s : State) (f : RefFields) : State :=
  let changed := f.divider ≠ s.ref.divider ∨ f.phaseOffset ≠ s.ref.phaseOffset
  let s := { s with ref := f, pendingRef := none }
  if changed then s.setupLock else s

/-- R50, R51, R54: what the monitor does at a boundary. A rate change takes effect before the boundary is counted, so that
neither count moves; in HOLDOVER with the holdover limit about to be reached the state becomes ACQUIRE, of cause SETUP, and
not FREE, of cause HOLDOVER_LIMIT (DESIGN CHOICE, log entry 14). -/
def State.monitorBoundary (s : State) (cause : Option BoundaryCause) : State :=
  match cause with
  | some .rate =>
    let s := match s.pendingRef with
      | some f => { s with ref := f, pendingRef := none }
      | none   => s
    s.setupLock
  | none | some .preset | some .jam =>
    match s.lock with
    | .locked => { s with strict := s.strict - 1 }
    | .holdover =>
      let s := { s with holdCount := min (s.holdCount + 1) 65535 }
      if s.holdoverLimit ≠ 0 ∧ s.holdoverLimit ≤ s.holdCount then s.setLock .free .holdoverLimit else s
    | .free | .acquire => s

/-- REFERENCE enable and disable (R53). -/
def State.enableReference (s : State) : State :=
  ({ s with attempts := 0 }).setRefEnable true

def State.disableReference (s : State) : State :=
  let s := s.setRefEnable false
  match s.lock with
  | .free => s
  | .acquire | .locked | .holdover => ({ s with acqRun := none, holdMark := false }).setLock .free .disabled

end Sys2Proof.Machine
end

