-- ==== Sys2Proof/Machine/Timebase.lean ====
section
/-! DEFINITION. The timebase: the count of a new frame (R25, R30, R38), timecode runs and jams (R58 to R62), and the
frame boundary with its receivers (R24 to R27). -/

namespace Sys2Proof.Machine

/-! ### Timecode words and jams -/

/-- The label of a timecode word (R58). -/
def wordLabel (w : TimecodeWord) : Label :=
  { hours := w.hours, minutes := w.minutes, seconds := w.seconds, frames := w.frames }

/-- R58 step 2: the signed difference of two frames-of-day, modulo N into −N/2..N/2 − 1. -/
def frameOffset (r : Rate) (a b : Nat) : Int :=
  ((a : Int) - b + r.framesPerDay / 2) % (r.framesPerDay : Int) - r.framesPerDay / 2

/-- R58 steps 3 and 4: whether a valid word of a label and an offset joins a run. -/
def JamRun.joins (run : JamRun) (r : Rate) (mode : JamMode) (l : Label) (offset : Int) : Bool :=
  run.last.next r == some l && (mode != .continuous || run.offset == offset)

/-- R58: the run after a valid word. -/
def jamRunAfter (r : Rate) (mode : JamMode) (run : Option JamRun) (l : Label) (offset : Int) : JamRun :=
  match run with
  | some x =>
    if x.joins r mode l offset then { x with length := min (x.length + 1) 15, last := l }
    else { length := 1, offset, last := l }
  | none => { length := 1, offset, last := l }

/-- TIMECODE_WORD (R58). -/
def State.timecodeWord (s : State) (w : TimecodeWord) : State :=
  match s.jamMode with
  | .off => s
  | .once | .continuous =>
    let l := wordLabel w
    if l.validWithFlag s.rate w.drop then
      let offset := frameOffset s.rate (l.frameOfDay s.rate) (frameOfDay s.rate s.pc)
      { s with jamRun := some (jamRunAfter s.rate s.jamMode s.jamRun l offset) }
    else { s with jamRun := none }

/-- R59: the count that a ONCE jam gives the new frame: the label that follows the run's last, in the day that ends, or
the next day if that label is 00:00:00:00. -/
def onceCount (r : Rate) (pc : Nat) (run : JamRun) : Option Nat :=
  match run.last.next r with
  | none   => none
  | some l =>
    let f := l.frameOfDay r
    let day := if f = 0 then (dayOf r pc + 1) % 65536 else dayOf r pc
    some (countOfDay r day f)

/-- R59, R60: the count of the jam that falls due at a boundary, if one does. -/
def State.jamDue (s : State) : Option Nat :=
  match s.jamRun with
  | none => none
  | some run =>
    if s.jamLength ≤ run.length then
      match s.jamMode with
      | .off => none
      | .once => onceCount s.rate s.pc run
      | .continuous => if run.offset = 0 then none else some (countAdd s.rate s.pc (1 + run.offset))
    else none

/-- The jam mode changes; the time beat is rewritten at a change (R183). -/
def State.setJamMode (s : State) (m : JamMode) : State :=
  if s.jamMode = m then s else ({ s with jamMode := m }).mark timePart

/-! ### The count of the new frame (R25) -/

/-- The delta of a discontinuity: the signed difference between the new count and (old + 1) modulo R (R25). -/
def boundaryDelta (r : Rate) (old new : Nat) : Int :=
  signedDiff r new (countAdd r old 1)

/-- The new frame begins with a count: the phase counter returns to 0 (R23, R25). -/
def State.beginFrame (s : State) (pc : Nat) : State :=
  { s with pc, phase := 0 }

/-- R25, R61: at a boundary that applies a rate change or a preset, a jam due or deferred is not applied; the run is
emptied and the deferral mark cleared (log entry 15). -/
def State.dropJam (s : State) : State :=
  if s.jamDue.isSome || s.deferral then { s with jamRun := none, deferral := false } else s

/-- R25 case 4: an ordinary boundary. -/
def State.ordinaryFrame (s : State) : State × BoundaryEvent :=
  let pc := countAdd s.rate s.pc 1
  (s.beginFrame pc, { pc, cause := none, delta := 0 })

/-- R38: the preset is applied; its command completes with DONE, the new count as its PC, the old count and the delta as
its result words. `s` runs at the rate in effect from this boundary, and `s.pc` is the count of the frame that ends. The label
is read by R33 at that rate, also where it was checked at a pending rate since given up (log entry 35). The status record and
its report stand before the time beat, which is rewritten at the event's end (DESIGN CHOICE, log entry 42). -/
def State.presetFrame (s : State) (p : Preset) : State × BoundaryEvent :=
  let old := s.pc
  let pc := countOfDay s.rate p.day (p.label.frameOfDay s.rate)
  let delta := boundaryDelta s.rate old pc
  let s := { s with preset := none }.beginFrame pc
  (s.completePending p.slot .done pc old (int64 delta), { pc, cause := some .preset, delta })

/-- R30: the pending rate is applied, and the count the frame would have had is converted. -/
def State.rateFrame (s : State) (new : Rate) : State × BoundaryEvent :=
  let pc := convertCount s.rate new (countAdd s.rate s.pc 1)
  (({ s with rate := new, pendingRate := none }).beginFrame pc, { pc, cause := some .rate, delta := 0 })

/-- R59, R60: a jam is applied. -/
def State.jamFrame (s : State) (pc : Nat) : State × BoundaryEvent :=
  let delta := boundaryDelta s.rate s.pc pc
  let once := s.jamMode == .once
  let s := ({ s with jamRun := none, deferral := false }).beginFrame pc
  let s := if once then s.setJamMode .off else s
  (s.report .jam 0 (int64 delta) (if once then jamDoneCode else jamCorrectionCode), { pc, cause := some .jam, delta })

/-- R61: a jam is deferred while a group is ROLLING or STOPPING: the mark is set, with one DEFERRED report. The report
carries the PC standing when the timebase takes the event, which is the new count (R26). -/
def State.deferJam (s : State) : State × BoundaryEvent :=
  let first := !s.deferral
  let r := ({ s with deferral := true }).ordinaryFrame
  (if first then r.1.report .jam 0 0 jamDeferredCode else r.1, r.2)

/-- R25: the timebase decides the count of the new frame. With a rate change and a preset both pending, the new rate is
applied first and the preset gives the count (log entry 32). -/
def State.decideFrame (s : State) : State × BoundaryEvent :=
  match s.pendingRate, s.preset with
  | some new, some p => ({ s.dropJam with rate := new, pendingRate := none }).presetFrame p
  | some new, none => s.dropJam.rateFrame new
  | none, some p => s.dropJam.presetFrame p
  | none, none =>
    if s.anyRolling && (s.jamDue.isSome || s.deferral) then s.deferJam
    else match s.jamDue with
      | some pc => s.jamFrame pc
      | none    => ({ s with deferral := false }).ordinaryFrame

/-! ### The boundary (R24, R26, R27) -/

/-- R26: what one receiver does with the boundary event. `rateChanged` holds at a boundary that applied a rate. -/
def State.receive (s : State) (e : BoundaryEvent) (rateChanged : Bool) : Receiver → State
  | .fpo => { s with fpo := true }
  | .windows => s.retargetWindows e.pc
  | .groups =>
    let s := if rateChanged then s.dropEndedTakes else s
    let c := s.chooseOrder (List.range 8)
    c.1.foldl (fun s g => if h : g < 8 then s.groupBoundary e.pc ⟨g, h⟩ else s) c.2
  | .anchors =>
    let s := match e.cause with
      | some .preset | some .jam => s.shiftAnchors e.delta
      | some .rate | none => s
    let c := s.chooseOrder (List.range 8)
    c.1.foldl (fun s g => if h : g < 8 then s.clapBoundary e.cause ⟨g, h⟩ else s) c.2
  | .markers => s.trigger .frame
  | .reports => s.mark timePart
  | .monitor => s.monitorBoundary (if rateChanged then some .rate else e.cause)

/-- The receivers of a boundary, as the table of R26 lists them. -/
def receivers : List Receiver :=
  [.fpo, .windows, .groups, .anchors, .markers, .reports, .monitor]

/-- R24 to R26: a frame boundary. The timebase decides the count; the receivers act, in an order the manual leaves
free. -/
def State.boundary (s : State) : State :=
  let rateChanged := s.pendingRate.isSome
  let s : State := if s.lock = .locked then { s with scheduled := s.scheduled.drop 1 } else s
  let d := s.decideFrame
  let c := d.1.chooseOrder (List.range 7)
  c.1.foldl (fun s i => s.receive d.2 rateChanged (receivers.getD i .fpo)) c.2

/-- R24: the instant of the next boundary. In LOCKED it is the earliest scheduled one, and the period counter takes none;
otherwise the period counter takes it when the phase counter reaches the period, or at once if it stands above. -/
def State.boundaryDue (s : State) : Option Nat :=
  if s.rstn then
    match s.lock with
    | .locked => s.scheduled.head?
    | .free | .acquire | .holdover => some (s.now - s.phase + s.rate.period)
  else none

/-- R27: FPO falls 27 ticks after it rose, which was at the last boundary. -/
def State.fpoDue (s : State) : Option Nat :=
  if s.fpo then some (s.now - s.phase + 27) else none

end Sys2Proof.Machine
end

