-- ==== Sys2Proof/Machine/Commands.lean ====
section
/-! DEFINITION. The command unit and the owners of the commands: settings (R161, R162), the consumer word (R177), and
what each command checks and does (R163 to R171). An owner answers the state after its effect and the result. -/

namespace Sys2Proof.Machine

/-! ### Owners -/

/-- The answer of an owner: its effect, and a completion or a command that goes on. -/
abbrev Owned := State × CommandResult

def State.refuse (s : State) (c : ResultCode) : Owned := (s, .refused c)

/-- R168 check 2: a source is not EMPTY, a group is not IDLE, or a window is OPEN. -/
def State.busy (s : State) : Bool :=
  (List.finRange 32).any (fun n : Fin 32 => s.sources[n].state != .empty) ||
    (List.finRange 8).any (fun g : Fin 8 => s.groups[g].state != .idle) ||
    (List.finRange 8).any (fun w : Fin 8 => s.windows[w].isSome)

/-- TIMEBASE_SET (R168, R29, R42). -/
def State.ownTimebaseSet (s : State) (rec : Beat) : Owned :=
  match timebaseSetArgs rec with
  | none => s.refuse .refusedRange
  | some (rate, f) =>
    if s.busy then s.refuse .refusedState
    else if s.preset.isSome ∧ rate ≠ s.rate then s.refuse .refusedState
    else
      let s : State := if rate = s.rate then ({ s with pendingRate := none }).applyRef f
        else { s with pendingRate := some rate, pendingRef := some f }
      (s, .done s.rate.val (match s.pendingRate with | some r => r.val | none => 255))

/-- TIME_PRESET (R37): the rate of the range check is the pending rate if one exists. -/
def State.ownTimePreset (s : State) (slot : Fin 16) (rec : Beat) : Owned :=
  match timePresetArgs (s.pendingRate.getD s.rate) rec with
  | none => s.refuse .refusedRange
  | some (day, label) =>
    if s.preset.isSome then s.refuse .refusedState
    else if s.anyRolling then s.refuse .refusedState
    else ({ s with preset := some { day, label, slot } }, .goesOn)

/-- JAM_MODE (R62, R169). -/
def State.ownJamMode (s : State) (rec : Beat) : Owned :=
  match jamModeArgs rec with
  | none => s.refuse .refusedRange
  | some (mode, length) =>
    (({ s with jamLength := length, jamRun := none, deferral := false }).setJamMode mode, .done mode.code length)

/-- REFERENCE (R53, R169): enable 1, disable 0, anything else out of range. -/
def State.ownReference (s : State) (rec : Beat) : Owned :=
  match field rec 8 1 with
  | 1 => let s := s.enableReference; (s, .done s.lock.code s.attempts)
  | 0 => let s := s.disableReference; (s, .done s.lock.code s.attempts)
  | _ => s.refuse .refusedRange

/-- The slots held by all sources that are not EMPTY (R66 check 6). -/
def State.slotsHeld (s : State) : Nat :=
  ((List.finRange 32).map fun n : Fin 32 => if s.sources[n].state = .empty then 0 else s.sources[n].slotCount).sum

/-- Whether a span overlaps the control window, an OPEN window, or the ring of a source that is not EMPTY (R66 check 5,
R140 check 6). -/
def State.spanTaken (s : State) (base bytes : Nat) : Bool :=
  spansOverlap base bytes s.controlBase controlLength ||
    (List.finRange 8).any (fun w : Fin 8 => s.windowMeets w fun x => spansOverlap base bytes x.base x.length) ||
    (List.finRange 32).any (fun n : Fin 32 =>
      s.sources[n].state != .empty && spansOverlap base bytes s.sources[n].ringBase s.sources[n].ringBytes)

/-- SOURCE_OPEN (R66, R67). -/
def State.ownSourceOpen (s : State) (rec : Beat) : Owned :=
  match sourceOpenArgs rec with
  | none => s.refuse .refusedRange
  | some (n, x) =>
    if s.pendingRate.isSome then s.refuse .refusedState
    else if s.sources[n].state ≠ .empty then s.refuse .refusedState
    else if (List.finRange 32).any (fun m : Fin 32 => s.sources[m].state != .empty && s.sources[m].initiator == x.initiator) then
      s.refuse .refusedOverlap
    else if s.spanTaken x.ringBase x.ringBytes then s.refuse .refusedOverlap
    else if 512 < s.slotsHeld + x.slotCount then s.refuse .refusedFull
    else ((s.putSource n x).sourceState n .empty .qualifying .opened, .done 0 0)

/-- SOURCE_REQUALIFY (R77, R91). -/
def State.requalify (s : State) (n : Fin 32) : State :=
  let old := s.sources[n].state
  let s := if old = .live then (s.completeFilling n .faulted).memberLost n else s
  let x := s.sources[n].releaseSlots
  let s := s.putSource n { x with run := 0, rejects := 0, previous := none, state := .qualifying }
  s.sourceState n old .qualifying .requalify

def State.ownSourceRequalify (s : State) (rec : Beat) : Owned :=
  match finField 32 rec 8 with
  | none => s.refuse .refusedRange
  | some n =>
    match s.sources[n].state with
    | .live | .faulted => (s.requalify n, .done 0 0)
    | .empty | .qualifying | .closing => s.refuse .refusedState

/-- SOURCE_CLOSE (R79, R91): the FILLING slot completes CLOSED, the slots are released, any MEMBER_LOST entry, the state
and its report. -/
def State.close (s : State) (n : Fin 32) : State :=
  let old := s.sources[n].state
  let s := s.completeFilling n .closed
  let s := s.putSource n s.sources[n].releaseSlots
  let s := if old = .live then s.memberLost n else s
  let s := s.putSource n { s.sources[n] with state := .closing }
  s.sourceState n old .closing .close

def State.ownSourceClose (s : State) (rec : Beat) : Owned :=
  match finField 32 rec 8 with
  | none => s.refuse .refusedRange
  | some n =>
    match s.sources[n].state with
    | .qualifying | .live | .faulted =>
      let s := s.close n
      if s.sources[n].drained then (s.becomeEmpty n, .done s.sources[n].slotCount 0) else (s, .goesOn)
    | .empty | .closing => s.refuse .refusedState

/-- LATE_MONITOR (R121). -/
def State.ownLateMonitor (s : State) (rec : Beat) : Owned :=
  match lateMonitorArgs rec with
  | none => s.refuse .refusedRange
  | some (n, threshold, edge, on) =>
    let x := s.sources[n]
    if x.state = .empty then s.refuse .refusedState
    else
      (s.putSource n { x with lateMonitor := { x.lateMonitor with threshold, edge, on } },
        .done (flagNat x.lateMonitor.late) 0)

/-- ANCHOR_SET (R107): result words the anchors after the addition, and the origin of the anchor removed, or NONE. -/
def State.ownAnchorSet (s : State) (rec : Beat) : Owned :=
  match anchorSetArgs s.rate rec with
  | none => s.refuse .refusedRange
  | some (n, a) =>
    let x := s.sources[n]
    if x.state = .empty ∨ x.state = .closing ∨ x.kind = .slate then s.refuse .refusedState
    else
      let removed := if 8 ≤ x.anchors.length then (x.anchors.getLastD Anchor.absent).origin.code else 0
      (s.addAnchor n a, .done (pushAnchor a x.anchors).length removed)

/-- INDEX_SET (R98). -/
def State.ownIndexSet (s : State) (rec : Beat) : Owned :=
  match indexSetArgs rec with
  | none => s.refuse .refusedRange
  | some ring =>
    if (List.finRange 32).any (fun n : Fin 32 => s.sources[n].state == .qualifying || s.sources[n].state == .live) then
      s.refuse .refusedState
    else if spansOverlap ring.base (ring.capacity * 64) s.controlBase controlLength then s.refuse .refusedOverlap
    else (({ s with indexRing := some ring }).mark indexPart, .done s.indexSeq 0)

/-- R124: a source that is a member and not named loses its membership, and its place in an OPEN match; a named one
gains membership. -/
def State.setMembers (s : State) (g : Fin 8) (named : List (Fin 32)) : State :=
  (List.finRange 32).foldl (fun s n =>
    let x := s.sources[n]
    if named.contains n then s.putSource n { x with group := some g }
    else if x.group = some g then (s.putSource n { x with group := none }).unexpect g n
    else s) s

/-- GROUP_SET (R124). -/
def State.ownGroupSet (s : State) (rec : Beat) : Owned :=
  match groupSetArgs rec with
  | none => s.refuse .refusedRange
  | some (g, named) =>
    if s.groups[g].state ≠ .idle then s.refuse .refusedState
    else if named.any (fun n => s.sources[n].state == .empty) then s.refuse .refusedState
    else if named.any (fun n => s.sources[n].group.isSome && s.sources[n].group != some g) then s.refuse .refusedOverlap
    else (s.setMembers g named, .done named.length 0)

/-- TAKE_ARM (R125). The group receives the requested roll count for AT_TIME; after an ON_SLATE or NOW arm it keeps the one
it had, which no rule reads then (DEDUCED, log entry 48). -/
def State.ownTakeArm (s : State) (rec : Beat) : Owned :=
  match takeArmArgs s.rate rec with
  | none => s.refuse .refusedRange
  | some (g, mode, count) =>
    let x := s.groups[g]
    if s.pendingRate.isSome then s.refuse .refusedState
    else if x.state ≠ .idle then s.refuse .refusedState
    else if x.take = 65535 then s.refuse .refusedState
    else
      let s := s.putGroup g { x with
        state := .armed, rollMode := mode, requestedRoll := if mode = .atTime then count else x.requestedRoll,
        rollDue := decide (mode = .now) }
      ((s.takeState g .idle .armed x.take .armed count).mark (groupPart g), .done (x.take + 1) 0)

/-- TAKE_STOP (R128): NEXT is (PC + 1) modulo R. -/
def State.ownTakeStop (s : State) (slot : Fin 16) (rec : Beat) : Owned :=
  match takeStopArgs s.rate rec with
  | none => s.refuse .refusedRange
  | some (g, stop) =>
    let x := s.groups[g]
    if x.state ≠ .rolling ∨ x.stopCount.isSome then s.refuse .refusedState
    else
      let accept (c : Nat) : Owned := (s.putGroup g { x with stopCount := some c, passed := [], stopCommand := some slot }, .goesOn)
      match stop with
      | none => accept (countAdd s.rate s.pc 1)
      | some c => if signedDiff s.rate c x.rollCount ≤ 0 then s.refuse .refusedRange else accept c

/-- TAKE_ABANDON (R131). -/
def State.ownTakeAbandon (s : State) (rec : Beat) : Owned :=
  match finField 8 rec 8 with
  | none => s.refuse .refusedRange
  | some g =>
    let x := s.groups[g]
    match x.state with
    | .idle => s.refuse .refusedState
    | .armed =>
      let s := s.putGroup g { x with state := .idle, rollDue := false }
      ((s.takeState g .armed .idle x.take .disarmed 0).mark (groupPart g), .done 0 0)
    | .rolling | .stopping => (s.takeEnd g s.pc .abandoned, .done 0 0)

/-- WINDOW_OPEN (R140, R141). -/
def State.ownWindowOpen (s : State) (rec : Beat) : Owned :=
  match windowOpenArgs s.rate rec with
  | none => s.refuse .refusedRange
  | some a =>
    let x := s.sources[a.source]
    let length := x.bufferLength * 64
    if s.pendingRate.isSome then s.refuse .refusedState
    else if s.windows[a.window].isSome then s.refuse .refusedState
    else if x.state = .empty ∨ x.state = .closing ∨ x.kind ≠ .camera then s.refuse .refusedState
    else if (match a.aim.cue with | some c => decide (x.speedRatio ≤ c.frac) | none => false) ||
        decide (addressEnd < a.base + length) || decide (addressEnd < a.slugBase + length) then s.refuse .refusedRange
    else if s.spanTaken a.base length then s.refuse .refusedOverlap
    else
      let target := aimTarget s.rate s.pc a.aim
      let w : Window :=
        { base := a.base, length := length, source := a.source, bound := true, speedRatio := x.speedRatio,
          mode := a.aim.mode, delay := a.aim.delay, cue := a.aim.cue, target := target, holdLimit := a.holdLimit,
          slugBase := a.slugBase, slugReported := none }
      ((s.putWindow a.window (some w)).mark (windowPart a.window), .done length target.count)

/-- R142, R138: WINDOW_CUE sets the mode and, of the delay and the cue stamp, the one that the mode reads; the other keeps
its value. The target is set, and the last slug report is none. -/
def Window.aimed (x : Window) (aim : WindowAim) (target : Stamp) : Window :=
  match aim.mode with
  | .liveDelay => { x with mode := aim.mode, delay := aim.delay, target := target, slugReported := none }
  | .cueStill | .cueRoll => { x with mode := aim.mode, cue := aim.cue, target := target, slugReported := none }

/-- WINDOW_CUE (R142). -/
def State.ownWindowCue (s : State) (rec : Beat) : Owned :=
  match windowCueArgs s.rate rec with
  | none => s.refuse .refusedRange
  | some (w, aim) =>
    match s.windows[w] with
    | none => s.refuse .refusedState
    | some x =>
      if (match aim.cue with | some c => decide (x.speedRatio ≤ c.frac) | none => false) then s.refuse .refusedRange
      else
        let target := aimTarget s.rate s.pc aim
        ((s.putWindow w (some (x.aimed aim target))).mark (windowPart w), .done target.count 0)

/-- WINDOW_CLOSE (R143): its first result word is the number of held reads answered with slug. -/
def State.ownWindowClose (s : State) (rec : Beat) : Owned :=
  match finField 8 rec 8 with
  | none => s.refuse .refusedRange
  | some w =>
    match s.windows[w] with
    | none => s.refuse .refusedState
    | some _ =>
      let entries := s.held.filter fun e => e.window == w
      (((entries.foldl State.slugHeld s).putWindow w none).mark (windowPart w), .done entries.length 0)

/-- MARKER (R136): its first result word is the train state after the command. -/
def State.ownMarker (s : State) (rec : Beat) : Owned :=
  match finField 4 rec 8 with
  | none => s.refuse .refusedRange
  | some m =>
    let run (set : Option (Trigger × Nat × Nat)) : Owned :=
      let x := s.markers[m].apply set (markerHasFire rec) (markerHasStop rec) s.now
      (s.putMarker m x, .done (flagNat x.train.isSome) 0)
    if markerHasSet rec then
      match markerSetArgs rec with
      | none => s.refuse .refusedRange
      | some a => run (some a)
    else run none

/-! ### Taking a command (R163, R164, R166, R167) -/

/-- R163, R164: the owner has acted; its parts of the status block are rewritten, and the command completes or becomes
PENDING. -/
def finishCommand (slot : Fin 16) (rec : Beat) (o : Owned) : State :=
  let s := o.1.rewriteOwners
  match o.2 with
  | .done r1 r2 => s.complete slot rec false .done s.pc r1 r2
  | .refused c  => s.complete slot rec false c s.pc 0 0
  | .goesOn     => s.makePending slot rec

/-- R166: a command written into a PENDING slot is not run; the collision mark is set. -/
def State.collide (s : State) (slot : Fin 16) : State :=
  match s.slots[slot] with
  | .pending rec _ => { s with slots := s.slots.set slot (.pending rec true) }
  | .idle | .done | .refused => s

/-- Whether a command slot is PENDING. -/
def CommandSlot.isPending : CommandSlot → Bool
  | .pending _ _ => true
  | .idle | .done | .refused => false

/-- R163, R166, R167: the command unit takes a command: it collides in a PENDING slot; while a drain runs it is refused,
but for ATTENTION_ACK; otherwise it is run. R122 has ANCHOR_SET add anchors and presets move them during a drain "as at any
other time". R172 says what that means: the bridge goes on "as at any other time, with the differences that R20, R157 and
R167 make", and R167 refuses both commands, so of the causes R122 names the qualifications, claps and jams act in a drain
(DEDUCED, log entry 38). -/
def State.runRecord (s : State) (slot : Fin 16) (rec : Beat) (run : State → State) : State :=
  if s.slots[slot].isPending then s.collide slot
  else if s.drain.isSome ∧ commandCode rec ≠ 19 then finishCommand slot rec (s.refuse .refusedState)
  else run s

/-- A command record as it is handed to the command unit: the whole beat of its slot, all enables set (R159). -/
def slotBeat (slot : Fin 16) (rec : Beat) : ControlBeat :=
  { offset := commandOffset slot.val, data := rec, enables := allEnables }

/-- R159: the command unit takes the beat at the front of what it was handed, if it is `b`; otherwise nothing is taken. -/
def State.takeBeat (s : State) (b : ControlBeat) (f : State → State) : State :=
  match s.inbox with
  | c :: rest => if s.rstn && decide (c = b) then f { s with inbox := rest } else s
  | [] => s

/-- R159, R163: the command unit takes a command record whose code the row names. -/
def State.takeCommand (s : State) (slot : Fin 16) (rec : Beat) (named : Bool) (run : State → State) : State :=
  if named then s.takeBeat (slotBeat slot rec) fun s => s.runRecord slot rec run else s

/-! ### ATTENTION_ACK (R170) -/

/-- R170: the named flags are cleared and the command completes, which sets COMMAND_DONE if that is not named and leaves
it clear if it is (R180, "with the exception of R170"). So a command that names COMMAND_DONE while it is clear changes
nothing of it, and the attention-and-ring beat is rewritten only for another flag or for the COMMAND_DONE report (DEDUCED,
log entry 49). `word` is result word 1. -/
def State.acknowledge (s : State) (slot : Fin 16) (rec : Beat) (word : Nat) : State :=
  let named : BitVec 8 := BitVec.ofNat 8 (field rec 8 1)
  let s := (s.raise fun f => f.acknowledge named).rewriteOwners
  s.completeLeaving (!named.getLsbD 7) slot rec false .done s.pc word 0

/-- R170: result word 1 is the set of flags standing after the command (log entry 25); the flags do not depend on it. -/
def State.runAttentionAck (s : State) (slot : Fin 16) (rec : Beat) : State :=
  s.acknowledge slot rec (s.acknowledge slot rec 0).flags

/-! ### Settings and the consumer word -/

/-- R161, R162: the write-back of a settings word: the current value with a mask of zero, the 8 bytes of the word. -/
def State.writeBack (s : State) (n : Fin 7) : State :=
  s.produce (.writeBack n.val) (s.controlBase + settingsOffset)
    [{ data := pack [settingField n.val s.settings[n]], enables := wordEnables n.val }]

/-- R161, R162: one settings word of the settings beat. -/
def State.settingWrite (s : State) (data : Beat) (enables : Enables) (n : Fin 7) : State :=
  let bytes := wordEnabled enables n.val
  if bytes = 0 then s
  else if bytes = 8 then
    let w := settingWritten data n
    let formed := mergeSetting s.settings[n] w.1 w.2
    if settingInRange n formed then ({ s with settings := s.settings.set n formed }).writeBack n
    else (s.writeBack n).report .settingRefused n.val formed.toNat s.settings[n].toNat
  else s.writeBack n

/-- SETTINGS_WRITE: the settings beat is taken, one settings write for each word with a byte enabled, S0 to S6 (R159). The
beat is one event for R183, whatever number of its words are refused (DEDUCED, log entry 44). -/
def State.settingsWrite (s : State) (data : Beat) (enables : Enables) : State :=
  (List.finRange 7).foldl (fun s n => s.settingWrite data enables n) s

/-- R159: whether all 8 bytes of the consumer word are enabled. -/
def consumerEnabled (enables : Enables) : Bool :=
  wordEnabled enables 0 == 8

/-- R177: a consumer write of a count v: it moves the consumer copy if v lies from the copy to the producer count. -/
def State.consumerWrite (s : State) (v : Nat) : State :=
  if s.consumer ≤ v ∧ v ≤ s.producer then
    if v = s.consumer then s else ({ s with consumer := v }).mark attentionPart
  else s

/-- R159: what a handed beat is taken as. -/
inductive TakenAs
  | settings
  | command (slot : Fin 16)
  | consumer
  | ignored
  deriving DecidableEq, Repr

/-- R159: the table of what a beat of a CONTROL WRITE is taken as. -/
def ControlBeat.takenAs (b : ControlBeat) : TakenAs :=
  if b.offset = settingsOffset then .settings
  else if b.offset = consumerOffset then (if consumerEnabled b.enables then .consumer else .ignored)
  else match (List.finRange 16).find? (fun k : Fin 16 => b.offset == commandOffset k.val) with
    | some k => if b.enables = allEnables then .command k else .ignored
    | none   => .ignored

end Sys2Proof.Machine
end

