-- ==== Sys2Proof/Machine/Clock.lean ====
section
/-! DEFINITION. The time clock and the shape of an event. Time passes only at the front of an event, and no tick passes
an event of the bridge that is due and not taken (log entries 1 and 2). -/

namespace Sys2Proof.Machine

/-- The instant at which the part under way of a marker line's train ends (R135). -/
def State.partDue (s : State) (m : Fin 4) : Option Nat :=
  s.markers[m].train.map Train.partEnd

/-- The deadline of the held read of an initiator (R151, R154). -/
def State.heldDue (s : State) (i : Fin 64) : Option Nat :=
  (s.held.find? fun e => e.initiator == i).map Held.deadline

/-- R13: the first tick at which the oldest own write has been in the queue longer than the age limit. -/
def State.ageDue (s : State) : Option Nat :=
  s.ownQueue.head?.map fun w => w.joined + s.ageLimit * 27 + 1

/-- A presented request that R2 lets the bridge take is taken before any tick passes. -/
def State.requestDue (s : State) : Option Nat :=
  if s.presented.any s.canTake then some s.now else none

/-- The instants at which the bridge's own events are due (R24, R27, R135, R45, R47, R154, R2); none while RST_N is
low (R18). -/
def State.dues (s : State) : List Nat :=
  if s.rstn then
    s.boundaryDue.toList ++ s.fpoDue.toList ++ (List.finRange 4).filterMap s.partDue ++ s.acquireDue.toList ++
      s.missingDue.toList ++ s.held.map Held.deadline ++ s.requestDue.toList
  else []

/-- The instant that the clock reaches on its way to `t`: no later than the first event due, and never back. -/
def State.reach (s : State) (t : Nat) : Nat :=
  max s.now (s.dues.foldl min t)

/-- The clock runs on to an instant. The phase counter counts with it (R23), but is held at 0 while RST_N is low (R40);
the responses of the step before are gone, and the reads that the step before left waiting for a redirect entry hold their
places (R146). An event that is taken at a boundary's instant but before the boundary reads the phase that the counter has
reached there: the period itself, where the period counter sets the boundary (DESIGN CHOICE, log entry 36). -/
def State.advanceTo (s : State) (t : Nat) : State :=
  { s with now := s.reach t, phase := if s.rstn then s.phase + (s.reach t - s.now) else 0, returned := [],
           waiting := s.waitOrder }

/-- The clock runs on by a number of ticks. -/
def State.wait (s : State) (dt : Nat) : State := s.advanceTo (s.now + dt)

/-- An event from outside, `dt` ticks after the event before it: nothing is taken while RST_N is low (R18); at the end
of the event the changed parts of the status block are rewritten (R183). -/
def State.event (s : State) (dt : Nat) (f : State → State) : State :=
  if s.rstn then (f (s.wait dt)).settle else s.wait dt

/-- An event that the bridge times itself, at its own instant. If another event falls due first, only time passes; if the
bridge times no such event, nothing happens. -/
def State.timed (s : State) (due : Option Nat) (f : State → State) : State :=
  match due with
  | none   => s.wait 0
  | some t => if s.rstn ∧ t ≤ s.reach t then (f (s.advanceTo t)).settle else s.advanceTo t

end Sys2Proof.Machine
end

