-- ==== Sys2Proof/Machine/Starts.lean ====
section
/-! DEFINITION. Starts and commands of the starts: power-on, the reset line, and the opening of the system link
(R18, R19). -/

namespace Sys2Proof.Machine

/-- The outcome of a command. -/
abbrev Out := Host.Outcome State Fault Refusal

/-- R19, and the tables of state at each start: every block takes its reset value, the straps are sampled, and the 21
start-up writes stand in the own-write queue. Requests that are presented stay presented (R2); the clock, the numbering
and the supply of orders are the model's and go on. -/
def State.start (s : State) (kind : StartKind) (cwb : BitVec 4) : State :=
  { State.reset with
    pending := s.pending, cwb := cwb, startKind := kind, ownQueue := startUpWrites kind cwb s.now, now := s.now,
    presented := s.presented, nextId := s.nextId, orders := s.orders }

/-- R18, R40, R27: at the falling edge of RST_N everything taken, queued, held or in flight is abandoned, and the lines
go low. The other registers keep what they hold until the release resets them (log entry 21). -/
def State.assertReset (s : State) : State :=
  { s with
    rstn := false, linkOpen := false, startupFaults := [], outstanding := [], parks := Vector.replicate 64 none,
    stream := [], ownQueue := [], offered := [], inFlight := [], inFlightOwn := [], held := [], redirects := [],
    inbox := [], drain := none, phase := 0, fpo := false, dirty := [], waiting := [] }

/-- POWER_ON (R18, R19). -/
def execPowerOn (dt : Nat) (cwb : BitVec 4) (s : State) : Out :=
  .next ((s.wait dt).start .powerOn cwb)

/-- RESET_ASSERT (R18); with RST_N already low there is no falling edge. -/
def execResetAssert (dt : Nat) (s : State) : Out :=
  .next (if s.rstn then (s.wait dt).assertReset else s.wait dt)

/-- RESET_RELEASE (R19); with RST_N already high there is no release. -/
def execResetRelease (dt : Nat) (cwb : BitVec 4) (s : State) : Out :=
  .next (if s.rstn then s.wait dt else (s.wait dt).start .resetLine cwb)

/-- SYSTEM_LINK_OPEN (R19 step 4). -/
def execSystemLinkOpen (s : State) : Out :=
  .next (s.event 0 State.openIfStarted)

end Sys2Proof.Machine
end

