-- ==== Sys2Proof/Machine/ControlCommands.lean ====
section
/-! DEFINITION. The commands of the control window: each takes the beat at the front of what was handed to the command
unit (R159, log entry 6). A row that names a command is the taking of a record with that command's code. -/

namespace Sys2Proof.Machine

/-- SETTINGS_WRITE (R159, R161, R162). -/
def execSettingsWrite (dt : Nat) (data : Beat) (enables : Enables) (s : State) : Out :=
  .next (s.event dt fun s =>
    s.takeBeat { offset := settingsOffset, data := data, enables := enables } fun s => s.settingsWrite data enables)

/-- CONSUMER_WRITE (R159, R177): the count is the 8 bytes of the consumer word. -/
def execConsumerWrite (dt : Nat) (data : Beat) (enables : Enables) (s : State) : Out :=
  .next (s.event dt fun s =>
    if consumerEnabled enables then
      s.takeBeat { offset := consumerOffset, data := data, enables := enables } fun s => s.consumerWrite (field data 0 8)
    else s)

/-- CONTROL_WRITE_IGNORED (R159). -/
def execControlWriteIgnored (dt offset : Nat) (data : Beat) (enables : Enables) (s : State) : Out :=
  .next (s.event dt fun s =>
    let b : ControlBeat := { offset := offset, data := data, enables := enables }
    if b.takenAs = .ignored then s.takeBeat b id else s)

/-- A command row: the record of a slot is taken if it is one the row names, and its owner's answer finishes it. -/
def State.commandEvent (s : State) (dt : Nat) (slot : Fin 16) (rec : Beat) (named : Bool) (own : State → Owned) : State :=
  s.event dt fun s => s.takeCommand slot rec named fun s => finishCommand slot rec (own s)

/-- TIMEBASE_SET (R168, R29, R42). -/
def execTimebaseSet (dt : Nat) (slot : Fin 16) (record : Beat) (s : State) : Out :=
  .next (s.commandEvent dt slot record (commandCode record == 1) fun s => s.ownTimebaseSet record)

/-- TIME_PRESET (R37). -/
def execTimePreset (dt : Nat) (slot : Fin 16) (record : Beat) (s : State) : Out :=
  .next (s.commandEvent dt slot record (commandCode record == 2) fun s => s.ownTimePreset slot record)

/-- JAM_MODE (R62, R169). -/
def execJamMode (dt : Nat) (slot : Fin 16) (record : Beat) (s : State) : Out :=
  .next (s.commandEvent dt slot record (commandCode record == 3) fun s => s.ownJamMode record)

/-- REFERENCE enable (R53, R169); an argument that is neither enable nor disable is refused in either row. -/
def execReferenceEnable (dt : Nat) (slot : Fin 16) (record : Beat) (s : State) : Out :=
  .next (s.commandEvent dt slot record (commandCode record == 4 && field record 8 1 != 0) fun s => s.ownReference record)

/-- REFERENCE disable (R53, R169). -/
def execReferenceDisable (dt : Nat) (slot : Fin 16) (record : Beat) (s : State) : Out :=
  .next (s.commandEvent dt slot record (commandCode record == 4 && field record 8 1 != 1) fun s => s.ownReference record)

/-- SOURCE_OPEN (R65 to R67). -/
def execSourceOpen (dt : Nat) (slot : Fin 16) (record : Beat) (s : State) : Out :=
  .next (s.commandEvent dt slot record (commandCode record == 5) fun s => s.ownSourceOpen record)

/-- SOURCE_REQUALIFY (R77). -/
def execSourceRequalify (dt : Nat) (slot : Fin 16) (record : Beat) (s : State) : Out :=
  .next (s.commandEvent dt slot record (commandCode record == 6) fun s => s.ownSourceRequalify record)

/-- SOURCE_CLOSE (R79, R81). -/
def execSourceClose (dt : Nat) (slot : Fin 16) (record : Beat) (s : State) : Out :=
  .next (s.commandEvent dt slot record (commandCode record == 7) fun s => s.ownSourceClose record)

/-- LATE_MONITOR (R121). -/
def execLateMonitor (dt : Nat) (slot : Fin 16) (record : Beat) (s : State) : Out :=
  .next (s.commandEvent dt slot record (commandCode record == 8) fun s => s.ownLateMonitor record)

/-- ANCHOR_SET (R107). -/
def execAnchorSet (dt : Nat) (slot : Fin 16) (record : Beat) (s : State) : Out :=
  .next (s.commandEvent dt slot record (commandCode record == 9) fun s => s.ownAnchorSet record)

/-- INDEX_SET (R98). -/
def execIndexSet (dt : Nat) (slot : Fin 16) (record : Beat) (s : State) : Out :=
  .next (s.commandEvent dt slot record (commandCode record == 10) fun s => s.ownIndexSet record)

/-- GROUP_SET (R124). -/
def execGroupSet (dt : Nat) (slot : Fin 16) (record : Beat) (s : State) : Out :=
  .next (s.commandEvent dt slot record (commandCode record == 11) fun s => s.ownGroupSet record)

/-- TAKE_ARM (R125). -/
def execTakeArm (dt : Nat) (slot : Fin 16) (record : Beat) (s : State) : Out :=
  .next (s.commandEvent dt slot record (commandCode record == 12) fun s => s.ownTakeArm record)

/-- TAKE_STOP (R128). -/
def execTakeStop (dt : Nat) (slot : Fin 16) (record : Beat) (s : State) : Out :=
  .next (s.commandEvent dt slot record (commandCode record == 13) fun s => s.ownTakeStop slot record)

/-- TAKE_ABANDON (R131). -/
def execTakeAbandon (dt : Nat) (slot : Fin 16) (record : Beat) (s : State) : Out :=
  .next (s.commandEvent dt slot record (commandCode record == 14) fun s => s.ownTakeAbandon record)

/-- WINDOW_OPEN (R140, R141). -/
def execWindowOpen (dt : Nat) (slot : Fin 16) (record : Beat) (s : State) : Out :=
  .next (s.commandEvent dt slot record (commandCode record == 15) fun s => s.ownWindowOpen record)

/-- WINDOW_CUE (R142). -/
def execWindowCue (dt : Nat) (slot : Fin 16) (record : Beat) (s : State) : Out :=
  .next (s.commandEvent dt slot record (commandCode record == 16) fun s => s.ownWindowCue record)

/-- WINDOW_CLOSE (R143). -/
def execWindowClose (dt : Nat) (slot : Fin 16) (record : Beat) (s : State) : Out :=
  .next (s.commandEvent dt slot record (commandCode record == 17) fun s => s.ownWindowClose record)

/-- A MARKER record with none of its three parts. -/
def markerHasNone (rec : Beat) : Bool := !markerHasSet rec && !markerHasFire rec && !markerHasStop rec

/-- MARKER with its SET part (R136, log entry 18). -/
def execMarkerSet (dt : Nat) (slot : Fin 16) (record : Beat) (s : State) : Out :=
  .next (s.commandEvent dt slot record (commandCode record == 18 && (markerHasSet record || markerHasNone record)) fun s => s.ownMarker record)

/-- MARKER with its FIRE part (R136, log entry 18). -/
def execMarkerFire (dt : Nat) (slot : Fin 16) (record : Beat) (s : State) : Out :=
  .next (s.commandEvent dt slot record (commandCode record == 18 && (markerHasFire record || markerHasNone record)) fun s => s.ownMarker record)

/-- MARKER with its STOP part (R136, log entry 18). -/
def execMarkerStop (dt : Nat) (slot : Fin 16) (record : Beat) (s : State) : Out :=
  .next (s.commandEvent dt slot record (commandCode record == 18 && (markerHasStop record || markerHasNone record)) fun s => s.ownMarker record)

/-- ATTENTION_ACK (R170), taken while a drain runs as at any other time (R167). -/
def execAttentionAck (dt : Nat) (slot : Fin 16) (record : Beat) (s : State) : Out :=
  .next (s.event dt fun s => s.takeCommand slot record (commandCode record == 19) fun s => s.runAttentionAck slot record)

/-- RESTART (R171 to R173). -/
def execRestart (dt : Nat) (slot : Fin 16) (record : Beat) (s : State) : Out :=
  .next (s.event dt fun s => s.takeCommand slot record (commandCode record == 20) fun s => s.runRestart slot record)

/-- Whether a code names a command (chapter 11, section 11.3). -/
def codeKnown (code : Nat) : Bool := decide (1 ≤ code) && decide (code ≤ 20)

/-- COMMAND_UNKNOWN (R167). -/
def execCommandUnknown (dt : Nat) (slot : Fin 16) (record : Beat) (s : State) : Out :=
  .next (s.commandEvent dt slot record (!codeKnown (commandCode record)) fun s => s.refuse .refusedUnknown)

/-- RESTART_DRAIN_END (R173): the event that empties the redirect table does it (log entry 3). -/
def execRestartDrainEnd (s : State) : Out :=
  .next (s.event 0 State.endDrainIfEmpty)

/-- COLLISION (R166): a record, of any code, is taken in a slot that is PENDING. -/
def execCollision (dt : Nat) (slot : Fin 16) (record : Beat) (s : State) : Out :=
  .next (s.event dt fun s =>
    if s.slots[slot].isPending then s.takeBeat (slotBeat slot record) fun s => s.collide slot else s)

end Sys2Proof.Machine
end

