-- ==== Sys2Proof/Machine/PathCommands.lean ====
section
/-! DEFINITION. The commands of the memory path: requests, the arbiter's choice, own writes, responses, and the releases
that follow them (R1 to R17, R81, R88, R148 to R154). -/

namespace Sys2Proof.Machine

/-- REQUEST_TAKEN (R1, R2): the links carry whole, well-formed requests only (log entry 7). While RST_N is low a request is
presented and stays presented. -/
def execRequestTaken (dt : Nat) (request : Request) (s : State) : Out :=
  .next (if !request.wf then s.event dt id
    else if s.rstn then s.event dt fun s => s.requestTaken request
    else (s.wait dt).present request)

/-- R152, R153: the held reads on a slot that has completed are released. -/
def State.releaseCompleted (s : State) (n : Fin 32) (slot : Nat) : State :=
  match (s.sources[n].slot slot).state, (s.sources[n].slot slot).kind with
  | .complete, some kind => s.releaseHeld n slot kind
  | .complete, none | .free, _ | .filling, _ | .reclaim, _ => s

/-- HELD_READ_RELEASE (R152): the completion does it in the same event (R90), so none is left to release after it (log
entry 3). -/
def execHeldReadRelease (source : Fin 32) (slot : Nat) (s : State) : Out :=
  .next (s.event 0 fun s => s.releaseCompleted source slot)

/-- R154: the held read of an initiator reaches its deadline. -/
def State.heldDeadline (s : State) (i : Fin 64) : State :=
  match s.held.find? (fun e => e.initiator == i) with
  | some e => (s.slugHeld e).heldTimeout e heldDeadlineCode
  | none   => s

/-- HELD_DEADLINE (R154). -/
def execHeldDeadline (initiator : Fin 64) (s : State) : Out :=
  .next (s.timed (s.heldDue initiator) fun s => s.heldDeadline initiator)

/-- ARBITER_CHOICE (R13): the store link can take a transaction (log entry 22). -/
def execArbiterChoice (dt : Nat) (s : State) : Out :=
  .next (s.event dt State.arbiterChoice)

/-- OWN_WRITE_AGE_LIMIT (R13 rule 2): the oldest own write passes the age limit; the next choice reads its age (log
entry 23). -/
def execOwnWriteAgeLimit (s : State) : Out :=
  .next (s.timed s.ageDue id)

/-- OFFERED_WRITE_JOIN (R14): the issue of an own write does it in the same event (log entry 3). -/
def execOfferedWriteJoin (s : State) : Out :=
  .next (s.event 0 State.joinOffered)

/-- FORWARDED_RESPONSE (R6, R8, R9). -/
def execForwardedResponse (dt tag : Nat) (response : StoreResponse) (s : State) : Out :=
  .next (s.event dt fun s => s.forwardedResponse tag response)

/-- REDIRECTED_READ_RESPONSE (R148). -/
def execRedirectedReadResponse (dt tag : Nat) (response : StoreResponse) (s : State) : Out :=
  .next (s.event dt fun s => s.redirectedResponse tag response)

/-- R88: a waiting header whose slot holds no pin any more is released. -/
def State.releaseUnpinned (s : State) (n : Fin 32) (slot : Nat) : State :=
  let y := s.sources[n].slot slot
  if y.pins = 0 ∧ y.waiting.isSome then s.pinZero n slot else s

/-- WAITING_HEADER_RELEASE (R88): the response that brings the pins to 0 does it in the same event (log entry 3). -/
def execWaitingHeaderRelease (source : Fin 32) (slot : Nat) (s : State) : Out :=
  .next (s.event 0 fun s => s.releaseUnpinned source slot)

/-- SOURCE_BECOMES_EMPTY (R81): the event that drains a CLOSING source does it (log entry 3). -/
def execSourceBecomesEmpty (source : Fin 32) (s : State) : Out :=
  .next (s.event 0 fun s => s.emptyIfDrained source)

/-- SLUG_READ_RESPONSE (R149). -/
def execSlugReadResponse (dt tag : Nat) (response : StoreResponse) (s : State) : Out :=
  .next (s.event dt fun s => s.slugResponse tag response)

/-- OWN_WRITE_RESPONSE (R17). -/
def execOwnWriteResponse (dt tag : Nat) (okay : Bool) (s : State) : Out :=
  .next (s.event dt fun s => s.ownResponse tag okay)

end Sys2Proof.Machine
end

