-- ==== Sys2Proof/Machine/TimeCommands.lean ====
section
/-! DEFINITION. The commands of time: boundaries, FPO, marker parts, reference pulses and deadlines, timecode words. -/

namespace Sys2Proof.Machine

/-- FRAME_BOUNDARY (R24 to R26). -/
def execFrameBoundary (s : State) : Out :=
  .next (s.timed s.boundaryDue State.boundary)

/-- R27: FPO falls. -/
def State.fpoFalls (s : State) : State := { s with fpo := false }

/-- FPO_FALL (R27). -/
def execFpoFall (s : State) : Out :=
  .next (s.timed s.fpoDue State.fpoFalls)

/-- R135: the part under way of a line's train ends. -/
def State.markerPartEnds (s : State) (line : Fin 4) : State :=
  s.putMarker line s.markers[line].partEnds

/-- MARKER_PART_END (R135). -/
def execMarkerPartEnd (line : Fin 4) (s : State) : Out :=
  .next (s.timed (s.partDue line) fun s => s.markerPartEnds line)

/-- REF_PULSE (R44, R45, R48, R51). -/
def execRefPulse (dt : Nat) (s : State) : Out :=
  .next (s.event dt State.refPulse)

/-- ACQUIRE_DEADLINE (R45, R47): the attempt fails for want of a pulse. -/
def execAcquireDeadline (s : State) : Out :=
  .next (s.timed s.acquireDue fun s => s.failAttempt none)

/-- MISSING_PULSE (R47). -/
def execMissingPulse (s : State) : Out :=
  .next (s.timed s.missingDue State.missPulse)

/-- TIMECODE_WORD (R58). -/
def execTimecodeWord (dt : Nat) (word : TimecodeWord) (s : State) : Out :=
  .next (s.event dt fun s => s.timecodeWord word)

end Sys2Proof.Machine
end

