-- ==== Sys2Proof/Machine/Dispatch.lean ====
section
/-! DEFINITION. One arm for each command: a direct call of its meaning. -/

namespace Sys2Proof.Machine

def exec (i : Instr) (s : State) : Host.Outcome State Fault Refusal :=
  match i with
  | .powerOn dt cwb => Sys2Proof.Machine.execPowerOn dt cwb s
  | .resetAssert dt => Sys2Proof.Machine.execResetAssert dt s
  | .resetRelease dt cwb => Sys2Proof.Machine.execResetRelease dt cwb s
  | .systemLinkOpen => Sys2Proof.Machine.execSystemLinkOpen s
  | .requestTaken dt request => Sys2Proof.Machine.execRequestTaken dt request s
  | .heldReadRelease source slot => Sys2Proof.Machine.execHeldReadRelease source slot s
  | .heldDeadline initiator => Sys2Proof.Machine.execHeldDeadline initiator s
  | .arbiterChoice dt => Sys2Proof.Machine.execArbiterChoice dt s
  | .ownWriteAgeLimit => Sys2Proof.Machine.execOwnWriteAgeLimit s
  | .offeredWriteJoin => Sys2Proof.Machine.execOfferedWriteJoin s
  | .forwardedResponse dt tag response => Sys2Proof.Machine.execForwardedResponse dt tag response s
  | .redirectedReadResponse dt tag response => Sys2Proof.Machine.execRedirectedReadResponse dt tag response s
  | .waitingHeaderRelease source slot => Sys2Proof.Machine.execWaitingHeaderRelease source slot s
  | .sourceBecomesEmpty source => Sys2Proof.Machine.execSourceBecomesEmpty source s
  | .slugReadResponse dt tag response => Sys2Proof.Machine.execSlugReadResponse dt tag response s
  | .ownWriteResponse dt tag okay => Sys2Proof.Machine.execOwnWriteResponse dt tag okay s
  | .frameBoundary => Sys2Proof.Machine.execFrameBoundary s
  | .fpoFall => Sys2Proof.Machine.execFpoFall s
  | .markerPartEnd line => Sys2Proof.Machine.execMarkerPartEnd line s
  | .refPulse dt => Sys2Proof.Machine.execRefPulse dt s
  | .acquireDeadline => Sys2Proof.Machine.execAcquireDeadline s
  | .missingPulse => Sys2Proof.Machine.execMissingPulse s
  | .timecodeWord dt word => Sys2Proof.Machine.execTimecodeWord dt word s
  | .settingsWrite dt data enables => Sys2Proof.Machine.execSettingsWrite dt data enables s
  | .consumerWrite dt data enables => Sys2Proof.Machine.execConsumerWrite dt data enables s
  | .controlWriteIgnored dt offset data enables => Sys2Proof.Machine.execControlWriteIgnored dt offset data enables s
  | .timebaseSet dt slot record => Sys2Proof.Machine.execTimebaseSet dt slot record s
  | .timePreset dt slot record => Sys2Proof.Machine.execTimePreset dt slot record s
  | .jamMode dt slot record => Sys2Proof.Machine.execJamMode dt slot record s
  | .referenceEnable dt slot record => Sys2Proof.Machine.execReferenceEnable dt slot record s
  | .referenceDisable dt slot record => Sys2Proof.Machine.execReferenceDisable dt slot record s
  | .sourceOpen dt slot record => Sys2Proof.Machine.execSourceOpen dt slot record s
  | .sourceRequalify dt slot record => Sys2Proof.Machine.execSourceRequalify dt slot record s
  | .sourceClose dt slot record => Sys2Proof.Machine.execSourceClose dt slot record s
  | .lateMonitor dt slot record => Sys2Proof.Machine.execLateMonitor dt slot record s
  | .anchorSet dt slot record => Sys2Proof.Machine.execAnchorSet dt slot record s
  | .indexSet dt slot record => Sys2Proof.Machine.execIndexSet dt slot record s
  | .groupSet dt slot record => Sys2Proof.Machine.execGroupSet dt slot record s
  | .takeArm dt slot record => Sys2Proof.Machine.execTakeArm dt slot record s
  | .takeStop dt slot record => Sys2Proof.Machine.execTakeStop dt slot record s
  | .takeAbandon dt slot record => Sys2Proof.Machine.execTakeAbandon dt slot record s
  | .windowOpen dt slot record => Sys2Proof.Machine.execWindowOpen dt slot record s
  | .windowCue dt slot record => Sys2Proof.Machine.execWindowCue dt slot record s
  | .windowClose dt slot record => Sys2Proof.Machine.execWindowClose dt slot record s
  | .markerSet dt slot record => Sys2Proof.Machine.execMarkerSet dt slot record s
  | .markerFire dt slot record => Sys2Proof.Machine.execMarkerFire dt slot record s
  | .markerStop dt slot record => Sys2Proof.Machine.execMarkerStop dt slot record s
  | .attentionAck dt slot record => Sys2Proof.Machine.execAttentionAck dt slot record s
  | .restart dt slot record => Sys2Proof.Machine.execRestart dt slot record s
  | .commandUnknown dt slot record => Sys2Proof.Machine.execCommandUnknown dt slot record s
  | .restartDrainEnd => Sys2Proof.Machine.execRestartDrainEnd s
  | .collision dt slot record => Sys2Proof.Machine.execCollision dt slot record s

end Sys2Proof.Machine
end

