-- ==== Sys2Proof/Machine/Step.lean ====
section
/-! DEFINITION. One step: the command at the front of the queue. With an empty queue the block idles and nothing
changes (log entry 4). -/

namespace Sys2Proof.Machine

/-- The state with the command that a word spells by the table's bits put at the front of its queue. No word spells one
(log entry 13), so the state is unchanged. -/
def State.withFetchWord (s : State) (nbits w : Nat) : State :=
  match Sys2Proof.decodeTableWord nbits w with
  | some c => { s with pending := c :: s.pending }
  | none   => s

/-- One step of the block. -/
def step (s : State) : Host.Outcome State Fault Refusal :=
  match s.pending with
  | c :: rest => exec c { s with pending := rest }
  | []        => .next s

end Sys2Proof.Machine
end

