-- ==== Sys2Proof/Safety.lean ====
section
/-! DEFINITION. What the manual promises of every state of the bridge: the laws that its rules say "the bridge holds",
and the capacities and ranges its tables give. Claims are stated in these terms. -/

namespace Sys2Proof.Machine

/-! ### What reporting touches

Every block tells software of an event in the same way: own writes, reports, attention flags, parts of the status block,
the state of a command slot. These are the fields an event may change beside its own effect. -/

/-- A state with the fields that reporting writes taken from another: the own-write queue and its offered writes, the
producer count, the event flags, the changed parts, the command slots, and the supply of orders. -/
def State.reporting (s t : State) : State :=
  { s with
    ownQueue := t.ownQueue, offered := t.offered, producer := t.producer, eventFlags := t.eventFlags, dirty := t.dirty,
    slots := t.slots, orders := t.orders }

/-- A state differs from another only in what reporting writes. -/
def State.Reports (s t : State) : Prop :=
  t = s.reporting t

/-- The bridge runs, and no part of the status block is left to rewrite. -/
def State.Calm (s : State) : Prop :=
  s.rstn = true ∧ s.dirty = []

/-- A command record stands at the front of what was handed to the command unit, for a slot that is not PENDING, while
no drain runs. -/
def State.Offers (s : State) (slot : Fin 16) (rec : Beat) (rest : List ControlBeat) : Prop :=
  s.inbox = slotBeat slot rec :: rest ∧ s.slots[slot].isPending = false ∧ s.drain = none

/-- The state a command slot takes from its owner's answer (R163, R165). -/
def slotAfter (rec : Beat) : CommandResult → CommandSlot
  | .done _ _  => .done
  | .refused c => CommandSlot.ofResult c
  | .goesOn    => .pending rec false

/-- The status record that an owner's answer gives (R164): the fields are state, result code, command code, COLLIDED,
tag, PC and the two result words. -/
def answerBeat (pc : Nat) (rec : Beat) : CommandResult → Beat
  | .done r1 r2 => statusRecordBeat 2 1 (commandCode rec) 0 (commandTag rec) pc r1 r2
  | .refused c  => statusRecordBeat 3 c.code (commandCode rec) 0 (commandTag rec) pc 0 0
  | .goesOn     => statusRecordBeat 1 0 (commandCode rec) 0 (commandTag rec) pc 0 0

/-- An own write of one whole beat stands in the own-write queue or among the offered own writes. -/
def State.Wrote (t : State) (kind : OwnKind) (addr : Nat) (b : Beat) : Prop :=
  ∃ w ∈ t.ownQueue ++ t.offered, w.kind = kind ∧ w.addr = addr ∧ w.beats = [fullBeat b]

/-- Two sets of event flags agree, but that a full ring may have set REPORT_OVERRUN (R176). -/
def EventFlags.UpToOverrun (f g : EventFlags) : Prop :=
  g = { f with overrun := g.overrun } ∧ (f.overrun = true → g.overrun = true)

/-- What is left of a command after its owner's effect `u`: reporting, with the slot's new state and its status record,
and the event flags `flags`. -/
structure State.Finishes (u t : State) (slot : Fin 16) (rec : Beat) (a : CommandResult) (flags : EventFlags) : Prop where
  reports : u.Reports t
  slots   : t.slots = u.slots.set slot (slotAfter rec a)
  record  : t.Wrote (.statusRecord slot.val) (u.controlBase + statusRecordOffset slot.val) (answerBeat u.pc rec a)
  flags   : flags.UpToOverrun t.eventFlags
  settled : t.dirty = []

/-- The event flags with COMMAND_DONE set (R164). -/
def EventFlags.done (f : EventFlags) : EventFlags := { f with commandDone := true }

/-- The state in which the owner of an offered command acts: time has passed, and the command's beat has been taken. -/
def State.atCommand (s : State) (dt : Nat) (rest : List ControlBeat) : State :=
  { s.wait dt with inbox := rest }

/-- An event that the bridge times itself is due at `d`, and no other event falls due before it. -/
def State.Due (s : State) (due : Option Nat) (d : Nat) : Prop :=
  due = some d ∧ d ≤ s.reach d

/-- The first report of an event that begins in `s` and leaves `t`: with its kind enabled and room in the ring, its
record stands among the own writes with the next sequence (R175, R176). -/
def State.Tells (s t : State) (kind : ReportKind) (subject pc d1 d2 : Nat) : Prop :=
  s.reportEnabled kind = true → s.producer - s.consumer < 15359 →
    t.Wrote (.report s.producer) (s.controlBase + reportOffset s.producer) (reportBeat s.producer kind subject pc d1 d2)

/-- A report of an event that begins in `s` and leaves `t`, which need not be the first: with its kind enabled and a ring
that the event did not fill, its record stands among the own writes with a sequence of the event (R175, R176). -/
def State.TellsAlso (s t : State) (kind : ReportKind) (subject pc d1 d2 : Nat) : Prop :=
  s.reportEnabled kind = true → t.producer - s.consumer < 15359 →
    ∃ seq, s.producer ≤ seq ∧ seq < t.producer ∧
      t.Wrote (.report seq) (s.controlBase + reportOffset seq) (reportBeat seq kind subject pc d1 d2)

/-- An index entry of an event that begins in `s` and leaves `t`: it has a sequence, and with an index ring set it stands
among the own writes at the place of that sequence (R98, R99). -/
def State.EntersAt (s t : State) (seq : Nat) (e : Entry) : Prop :=
  seq < t.indexSeq ∧ ∀ ring, s.indexRing = some ring →
    t.Wrote (.index seq) (ring.base + seq % ring.capacity * 64) (entryBeat s.rate seq e)

/-- The event produced the entry, with one of the sequences it gave (R99). -/
def State.Enters (s t : State) (e : Entry) : Prop :=
  ∃ seq, s.indexSeq ≤ seq ∧ s.EntersAt t seq e

/-- A part of the status block has been rewritten as it stands in `t` (R183). -/
def State.Shows (t : State) (part : Nat) : Prop :=
  t.Wrote (.statusPart part) (t.controlBase + part * 64) (t.partBeat part)

/-- R183: the rewrite of a part of the status block, as it stands in `t`, is the newest own write. -/
def State.ShowsLast (t : State) (part : Nat) : Prop :=
  ((t.ownQueue ++ t.offered).getLast?.map fun w => (w.kind, w.addr, w.beats)) =
    some (.statusPart part, t.controlBase + part * 64, [fullBeat (t.partBeat part)])

/-- R2: a well-formed request of an initiator that presents nothing else and is not parked, with the system link open
and room in the own-write queue. -/
structure State.Ready (s : State) (r : Request) : Prop where
  calm     : s.Calm
  wf       : r.wf = true
  link     : s.linkOpen = true
  room     : s.ownQueue.length < 32
  unparked : s.parks[r.initiator] = none
  alone    : ∀ q ∈ s.presented, q.initiator ≠ r.initiator

/-- The record of a request at its arrival (R1). -/
def Taken.fresh (request : Nat) (i : Fin 64) : Taken :=
  { request := request, initiator := i, parts := 0, forming := false, faulted := false, answer := none }

/-- The state at the arrival of a request, with its record: its number is the next one. -/
def State.arrived (s : State) (dt : Nat) (r : Request) : State :=
  { s.wait dt with nextId := s.nextId + 1, outstanding := s.outstanding ++ [Taken.fresh s.nextId r.initiator] }

/-- The response of an initiator's request that is answered with OKAY and data, or with FAULT, by the store link. -/
def answerGiven : StoreResponse → Answer
  | .okay data => .okay data
  | .fault     => .fault

/-- The numbers of an initiator's requests that have not been answered, in the order of their taking (R1). -/
def State.unanswered (s : State) (i : Fin 64) : List Nat :=
  (s.outstanding.filter fun k => k.initiator == i).map Taken.request

/-- The numbers of an initiator's requests answered in the latest step, in the order of their responses (R1). -/
def State.answered (s : State) (i : Fin 64) : List Nat :=
  (s.returned.filter fun k => k.initiator == i).map Returned.request

/-- What a transaction asks of the store link, without its number. -/
def Transaction.asks (x : Transaction) : Cargo × Nat × Access := (x.cargo, x.addr, x.access)

/-- The slug read that answers a held read from the slug base of its window as it stands (R149, R155). -/
def State.slugFor (s : State) (e : Held) : Cargo × Nat × Access :=
  (.slug e.request, (match s.windows[e.window] with | some x => x.slugBase | none => 0) + e.offset, .read e.beats)

/-- The anchors of a source, shifted (R39). -/
def Source.shifted (x : Source) (r : Rate) (delta : Int) : Source :=
  { x with anchors := x.anchors.map fun a => { a with pc := countAdd r a.pc delta } }

/-- R130: a group whose take has ended. -/
def Group.afterTake (x : Group) (endCount : Nat) : Group :=
  { x with state := .idle, stopCount := none, stopCommand := none, passed := [], awaited := [], tail := 0,
           ended := some { take := x.take, rollCount := x.rollCount, endCount := endCount } }

/-- R130, R131: the take of group `g` has ended by a cause between `s` and `t`, from the state `old`, while the count
stood at `pc`: the TAKE_END entry with the flag of its cause, the group, the report, the completion of the stop command,
and the TAKE_END triggers. -/
structure State.EndsTake (s t : State) (g : Fin 8) (old : GroupState) (pc endCount : Nat) (cause : TakeCause) : Prop where
  entry   : s.Enters t (groupEntry .takeEnd 0 g s.groups[g].take
              (match cause with | .tailExpired => 512 | .abandoned => 1024 | _ => 0) endCount)
  group   : t.groups[g] = s.groups[g].afterTake endCount
  report  : s.TellsAlso t .takeState g.val pc (old.code + 65536 * s.groups[g].take + 4294967296 * cause.code) endCount
  flag    : t.eventFlags.takeChange = true
  part    : t.Shows (groupPart g)
  command : ∀ k rec c, s.groups[g].stopCommand = some k → s.slots[k] = .pending rec c → t.slots[k] = .done ∧
              t.Wrote (.statusRecord k.val) (s.controlBase + statusRecordOffset k.val)
                (statusRecordBeat 2 1 (commandCode rec) (flagNat c) (commandTag rec) pc endCount cause.code)
  marker  : ∀ m : Fin 4, s.markers[m].trigger = .takeEnd g → t.markers[m] = s.markers[m].start t.now

/-- R90, R101 to R103: the index entry of slot `i` of source `n`, stamped `st` with the fill record `f`, at a completion. -/
def State.slotEntryOf (s : State) (n : Fin 32) (i : Nat) (kind : CompletionKind) (st : Stamp) (f : Fill) : Entry :=
  { kind := match s.sources[n].kind with
      | .camera | .sound => .media
      | .slate => if f.clap then .clap else .slate
    source := n.val, group := s.sources[n].group, completion := some kind, take := (s.takeOf n st.count).1,
    flags := f.flags.toNat + 16 * flagNat f.clap + 32 * flagNat f.roll + 64 * flagNat (s.takeOf n st.count).2,
    stamp := st, gapSize := f.gapSize, position := f.position,
    slotAddress := s.sources[n].ringBase + i * s.sources[n].bufferLength * 64 }

/-- The held reads on a slot, in the order of their arrival. -/
def State.heldOn (s : State) (n : Fin 32) (i : Nat) : List Held :=
  s.held.filter fun e => e.source == n && e.slot == i

/-- R152: of the held reads on a slot that completes FULL or SHORT, those that find a free redirect entry. -/
def State.redirectable (s : State) (n : Fin 32) (i : Nat) : List Held :=
  (s.heldOn n i).take (32 - s.redirects.length)

/-- R152: the reads that a completion FULL or SHORT of a slot releases, in order: redirected reads of the slot while the
redirect table has room, and slug reads. -/
def State.readsReleased (s : State) (n : Fin 32) (i : Nat) : List (Cargo × Nat × Access) :=
  ((s.redirectable n i).map fun e =>
      (.redirected e.request, s.sources[n].ringBase + i * s.sources[n].bufferLength * 64 + e.offset, .read e.beats)) ++
    ((s.heldOn n i).drop (32 - s.redirects.length)).map s.slugFor

/-- R90: slot `i` of source `n` has completed FULL or SHORT between `s` and `t`: its entry is the first of the event, and
every held read on it has left the list, each with a redirect entry while the table had room. -/
structure State.Completes (s t : State) (n : Fin 32) (i : Nat) (kind : CompletionKind) : Prop where
  entry     : ∀ st f, (s.sources[n].slot i).stamp = some st → (s.sources[n].slot i).fill = some f →
                s.EntersAt t s.indexSeq (s.slotEntryOf n i kind st f)
  held      : t.held = s.held.filter fun e => !(e.source == n && e.slot == i)
  parks     : ∀ e ∈ s.heldOn n i, t.parks[e.initiator] = none
  redirects : (t.redirects.map fun k => (k.window, k.initiator, k.source, k.slot)) =
                (s.redirects.map fun k => (k.window, k.initiator, k.source, k.slot)) ++
                  (s.redirectable n i).map fun e => (e.window, e.initiator, n, i)

/-- R81, R117, R139: source `n` has become EMPTY between `u` and `t`: it holds nothing, the windows bound to it are LOST,
it is expected by no clap match, and a SOURCE_CLOSE still PENDING for it completes with the number of slots returned.
Nothing else changes but reporting. -/
structure State.BecomesEmpty (u t : State) (n : Fin 32) : Prop where
  source  : t.sources = u.sources.set n Source.empty
  windows : ∀ w : Fin 8, t.windows[w] = u.windows[w].map fun x => if x.source = n then { x with bound := false } else x
  claps   : ∀ g : Fin 8, t.claps[g] = u.claps[g].bind fun c =>
              if c.expected.any (fun e => e.1 == n) then { c with expected := c.expected.filter fun e => e.1 != n }.orComplete
              else some c
  rest    : ({ u with sources := t.sources, windows := t.windows, claps := t.claps } : State).Reports t
  report  : u.Tells t .sourceState n.val u.pc (byteWord [4, 0]) 7
  part    : t.Shows (sourcePart n)
  command : ∀ (k : Fin 16) (rec : Beat) (c : Bool), u.slots[k] = .pending rec c → commandCode rec = 7 → field rec 8 1 = n.val →
              (∀ j : Fin 16, j < k → ∀ rc d, u.slots[j] = .pending rc d → ¬(commandCode rc = 7 ∧ field rc 8 1 = n.val)) →
              t.slots = u.slots.set k .done ∧
                t.Wrote (.statusRecord k.val) (u.controlBase + statusRecordOffset k.val)
                  (statusRecordBeat 2 1 7 (flagNat c) (commandTag rec) u.pc u.sources[n].slotCount 0)

/-- The latched late state of a source after a stamped header of lateness `l` (R120). -/
def Source.lateAfter (x : Source) (l : Int) : LateMonitor :=
  if x.lateMonitor.on then { x.lateMonitor with late := decide ((x.lateMonitor.threshold : Int) < l) } else x.lateMonitor

/-- R120, R188: with the monitor on, a change of the latched state that its edge selects makes a LATE_CHANGE report, with
the arrival PC, the new state and the lateness (for a lateness beyond 32 bits, log entry 10), and the stamp's count. -/
def State.TellsLate (s t : State) (n : Fin 32) (l : Int) (arrivalPc count : Nat) : Prop :=
  let m := s.sources[n].lateMonitor
  let late := decide ((m.threshold : Int) < l)
  m.on = true → late ≠ m.late → (m.edge = .both ∨ m.edge = (if late then .enter else .leave)) →
    -2147483648 ≤ l → l ≤ 2147483647 →
    s.Tells t .lateChange n.val arrivalPc (flagNat late + 4294967296 * (BitVec.ofInt 32 l).toNat) count

/-- The stamp flags of a header (R97, R119). -/
def Source.flagsOf (x : Source) (beforeAnchor : Bool) (gapSize : Nat) (l : Int) : StampFlags :=
  { beforeAnchor := beforeAnchor, gap := gapSize != 0, late := decide ((x.lateMonitor.threshold : Int) < l),
    early := decide (l < 0) }

/-- R69: the beat of a write at `addr` is a header candidate of the source: the first beat of a slot, with all its bytes
enabled. -/
def Source.headerAt (x : Source) (addr : Nat) (b : WriteBeat) : Bool :=
  decide ((x.place addr).2 = 0 ∧ b.enables = allEnables)

/-- R8, R89: every beat of a write at `addr` is a data beat of slot `i` of the source. -/
def Source.DataBeats (x : Source) (addr i : Nat) (bs : List WriteBeat) : Prop :=
  ∀ k b, bs[k]? = some b → (x.place (addr + 64 * k)).1 = i ∧ x.headerAt (addr + 64 * k) b = false

/-- R76: the beats of a write at `addr` as a FAULTED source passes them: each header candidate among them REJECTED,
SOURCE_FAULTED, and the others as they came. -/
def Source.faultedBeats (x : Source) (addr : Nat) (bs : List WriteBeat) : List WriteBeat :=
  bs.mapIdx fun k b => if x.headerAt (addr + 64 * k) b then { b with data := rejectedBeat b.data .sourceFaulted } else b

/-- R78, R88, R11: the header `w` that waited on slot `i` of source `n`, which is RECLAIM and holds no pin, is released
between `u` and `t`, by the state of its source, and the rest of its request is examined and goes on with it as one part.
FAULTED: it goes on REJECTED, with the header candidates of the rest, and its slot becomes FREE. CLOSING: it goes on as it was
written, its slot becomes FREE, and the source may become EMPTY. QUALIFYING: it takes its slot unstamped. LIVE: it takes
its slot, stamped with the arrival of its request (shown for a header without CLAP and ROLL). One that was rejected keeps
its reason. Where the slot is taken, the rest is here data beats of that slot, which are counted and do not fill it. The
initiator is no longer parked. -/
def State.Releases (u t : State) (n : Fin 32) (i : Nat) (w : Waiting) : Prop :=
  let x := u.sources[n]
  let went (d : Beat) (rest : List WriteBeat) : State := { u with
    nextId := u.nextId + 1, parks := u.parks.set w.initiator none,
    outstanding := u.outstanding.map fun k => if k.request = w.request then { k with parts := k.parts + 1, forming := false } else k,
    stream := u.stream ++ [⟨u.nextId, .capture w.request, w.addr, .write (fullBeat d :: rest)⟩] }
  let counted (y : Slot) : Slot := { y with beats := w.rest.length + 1 }
  let unstamped : Slot := counted ((x.slot i).fillWith none (x.fillOf w.beat StampFlags.none 0))
  let passed : State := (went w.beat w.rest).putSlot n i Slot.free
  let fits := x.DataBeats (w.addr + 64) i w.rest ∧ w.rest.length + 2 ≤ x.bufferLength
  (x.state = .faulted →
    t = (went (rejectedBeat w.beat .sourceFaulted) (x.faultedBeats (w.addr + 64) w.rest)).putSlot n i Slot.free) ∧
  (x.state = .closing → passed.sources[n].drained = false → t = passed) ∧
  (x.state = .closing → passed.sources[n].drained = true → passed.BecomesEmpty t n) ∧
  (x.state = .qualifying → w.judgement = .accepted → fits → t = (went (qualifyingBeat w.beat) w.rest).putSlot n i unstamped) ∧
  (∀ reason, (x.state = .qualifying ∨ x.state = .live) → w.judgement = .rejected reason → fits →
    t = (went (rejectedBeat w.beat reason) w.rest).putSlot n i unstamped) ∧
  (x.state = .live → w.judgement = .accepted → fits → headerClap w.beat = false → headerRoll w.beat = false →
    let st := x.stampOf u.rate (headerPosition w.beat) w.arrivalPc w.arrivalPhase
    let l := x.lateness u.rate w.arrivalPc st.1.count
    let flags := x.flagsOf st.2 w.gapSize l
    ((went (stampedBeat w.beat st.1 flags) w.rest).putSource n
      ({ x with lastStamp := some st.1, lateMonitor := x.lateAfter l }.withSlot i
        (counted ((x.slot i).fillWith (some st.1) (x.fillOf w.beat flags w.gapSize))))).Reports t ∧
    u.TellsLate t n l w.arrivalPc st.1.count ∧ t.Shows (sourcePart n))

/-- The first condition of a table of refusals that holds gives the result code. -/
def Refusing : List (Prop × ResultCode) → ResultCode → Prop
  | [], _ => False
  | (p, c) :: rest, d => (p ∧ d = c) ∨ (¬p ∧ Refusing rest d)

/-- The command `c` is refused by the first condition of the table that holds: it ends with that code, and its owner has
changed nothing (R165). -/
def State.RefusedBy (s : State) (c : Instr) (dt : Nat) (slot : Fin 16) (rec : Beat) (rest : List ControlBeat)
    (table : List (Prop × ResultCode)) : Prop :=
  ∀ code, Refusing table code → ∃ t, exec c s = .next t ∧
    State.Finishes (s.atCommand dt rest) t slot rec (.refused code) s.eventFlags.done

/-- R173 step 1: nothing of the stage is configured. -/
def State.Bare (t : State) : Prop :=
  (∀ n : Fin 32, t.sources[n] = Source.empty) ∧ (∀ g : Fin 8, t.claps[g] = none ∧ t.groups[g] = Group.initial) ∧
    (∀ w : Fin 8, t.windows[w] = none) ∧ (∀ m : Fin 4, t.markers[m] = Marker.initial)

/-- R173: the RESTART drain of a command slot has ended between `u` and `t`, with `count` sources made EMPTY: nothing is
configured, the flags are cleared and COMMAND_DONE is set, every source, group and window part is rewritten, the RESTART
completes, the START report is made, the header beat shows RESTART, and the attention-and-ring beat is rewritten (R184). -/
structure State.EndsDrain (u t : State) (slot : Fin 16) (rec : Beat) (c : Bool) (count : Nat) : Prop where
  drain  : t.drain = none
  bare   : t.Bare
  start  : t.startKind = .restart
  done   : t.slots[slot] = .done
  flags  : EventFlags.clear.done.UpToOverrun t.eventFlags
  parts  : ∀ n, n < 48 → t.Shows n
  header : t.Shows headerPart
  attn   : t.Shows attentionPart
  record : t.Wrote (.statusRecord slot.val) (u.controlBase + statusRecordOffset slot.val)
             (statusRecordBeat 2 1 (commandCode rec) (flagNat c) (commandTag rec) u.pc count 0)
  report : u.TellsAlso t .start 0 u.pc 3 count
  kept   : t.pc = u.pc ∧ t.phase = u.phase ∧ t.rate = u.rate ∧ t.lock = u.lock ∧ t.refEnable = u.refEnable ∧
             t.jamMode = u.jamMode ∧ t.settings = u.settings ∧ t.indexRing = u.indexRing ∧ t.consumer = u.consumer

/-! ### The memory path -/

/-- The numbers of the requests in the bridge lie below the next one (log entry 24). -/
def State.IdLaw (s : State) : Prop :=
  ∀ k ∈ s.outstanding, k.request < s.nextId

/-- R14: the own-write queue holds at most 32 entries, and an own write is offered only while it holds 32. -/
def State.QueueLaw (s : State) : Prop :=
  s.ownQueue.length ≤ 32 ∧ (s.offered ≠ [] → s.ownQueue.length = 32)

/-- The unissued write-backs of a settings word, queued or offered. -/
def State.unissuedWriteBacks (s : State) (word : Nat) : List OwnWrite :=
  (s.ownQueue ++ s.offered).filter fun w => decide (w.kind = .writeBack word)

/-- R15: at most one unissued write-back for each of S0 to S6. -/
def State.WriteBackLaw (s : State) : Prop :=
  ∀ n : Fin 7, (s.unissuedWriteBacks n.val).length ≤ 1

/-- R161: every write-back, queued or offered, goes to the settings beat of the control window. -/
def State.WriteBackPlaceLaw (s : State) : Prop :=
  ∀ w ∈ s.ownQueue ++ s.offered, ∀ n, w.kind = .writeBack n → w.addr = s.controlBase + settingsOffset

/-! ### Time -/

/-- R21, R22: the picture count lies in 0..R − 1. -/
def State.CountLaw (s : State) : Prop :=
  s.pc < s.rate.range

/-- R41, R43: boundaries are scheduled only in LOCKED. -/
def State.ScheduleLaw (s : State) : Prop :=
  s.lock ≠ .locked → s.scheduled = [] ∧ s.lastUsed = none

/-! ### Sources and slots -/

/-- Whether no two spans of a list share a byte. -/
def spansApart : List (Nat × Nat) → Bool
  | [] => true
  | p :: ps => ps.all (fun q => !spansOverlap p.1 p.2 q.1 q.2) && spansApart ps

/-- The control window, the spans of the OPEN windows, and the rings of the sources that are not EMPTY. -/
def State.spans (s : State) : List (Nat × Nat) :=
  (s.controlBase, controlLength) ::
    ((List.finRange 8).filterMap fun w : Fin 8 => s.windows[w].map fun x => (x.base, x.length)) ++
    ((List.finRange 32).filterMap fun n : Fin 32 =>
      if s.sources[n].state = .empty then none else some (s.sources[n].ringBase, s.sources[n].ringBytes))

/-- R66: the control window, the OPEN playout windows and the rings of sources that are not EMPTY never overlap one
another. -/
def State.SpanLaw (s : State) : Prop :=
  spansApart s.spans = true

/-- R66: the slots held by all sources together never exceed 512. -/
def State.PoolLaw (s : State) : Prop :=
  s.slotsHeld ≤ 512

/-- R74: a LIVE camera or sound source has at least one anchor. -/
def State.AnchorLaw (s : State) : Prop :=
  ∀ n : Fin 32, s.sources[n].state = .live → s.sources[n].kind ≠ .slate → s.sources[n].anchors ≠ []

/-- R105: an anchor list holds at most 8 anchors. -/
def State.AnchorBound (s : State) : Prop :=
  ∀ n : Fin 32, s.sources[n].anchors.length ≤ 8

/-- R81: an EMPTY source is a member of no group and holds no slots, no anchors and no waiting header. -/
def State.EmptyLaw (s : State) : Prop :=
  ∀ n : Fin 32, s.sources[n].state = .empty → s.sources[n] = Source.empty

/-- The FILLING slots of a source. -/
def Source.fillingCount (x : Source) : Nat :=
  (x.slots.filter fun y => y.state == .filling).length

/-- R85: a source has at most one slot in FILLING, and a source that is neither QUALIFYING nor LIVE has none. -/
def State.FillingLaw (s : State) : Prop :=
  ∀ n : Fin 32, s.sources[n].fillingCount ≤ 1 ∧
    (s.sources[n].state ≠ .qualifying → s.sources[n].state ≠ .live → s.sources[n].fillingCount = 0)

/-- R85: a slot in RECLAIM has a pin count of at least one. Between an assertion of RST_N and the release no read is
in flight. -/
def State.ReclaimLaw (s : State) : Prop :=
  s.rstn = true → ∀ n : Fin 32, ∀ y ∈ s.sources[n].slots, y.state = .reclaim → 1 ≤ y.pins

/-- R89: a FILLING slot never stands with its beats counted at the buffer length. -/
def State.BeatLaw (s : State) : Prop :=
  ∀ n : Fin 32, ∀ y ∈ s.sources[n].slots, y.state = .filling → y.beats < s.sources[n].bufferLength

/-- The pin counts of all slots together. -/
def State.pinSum (s : State) : Nat :=
  ((List.finRange 32).map fun n : Fin 32 => (s.sources[n].slots.map Slot.pins).sum).sum

/-- R92: the pin counts of all slots sum to the number of entries in the redirect table. -/
def State.PinLaw (s : State) : Prop :=
  s.rstn = true → s.pinSum = s.redirects.length

/-! ### Windows and held reads -/

/-- R151, R148: the held-read list holds at most 16 entries and the redirect table at most 32. -/
def State.CapacityLaw (s : State) : Prop :=
  s.held.length ≤ 16 ∧ s.redirects.length ≤ 32

/-- R151: whether a held entry names an OPEN window whose bound source is LIVE, and a slot of that source that is
FILLING with a stamp equal to the entry's target. -/
def State.holds (s : State) (e : Held) : Bool :=
  (s.windowMeets e.window fun w => w.bound && w.source == e.source) && s.sources[e.source].state == .live &&
    (s.sources[e.source].slot e.slot).state == .filling && (s.sources[e.source].slot e.slot).stamp == some e.target

/-- R151: the law of the held-read list. -/
def State.HeldLaw (s : State) : Prop :=
  ∀ e ∈ s.held, s.holds e = true

/-- R10: a held read parks its initiator. -/
def State.ParkLaw (s : State) : Prop :=
  ∀ e ∈ s.held, s.parks[e.initiator] = some e.request

/-! ### The laws of the memory path together

FillingLaw, ReclaimLaw, PinLaw, HeldLaw and ParkLaw lean on one another and on the facts below, so that no step keeps one of
them alone. -/

/-- R66 check 4: no two sources that are not EMPTY have one initiator. -/
def State.InitiatorLaw (s : State) : Prop :=
  ∀ m n : Fin 32, m ≠ n → s.sources[m].state ≠ .empty → s.sources[n].state ≠ .empty →
    s.sources[m].initiator ≠ s.sources[n].initiator

/-- R92, R148: the pin count of a slot is the number of redirect entries that name it, a FREE slot has none, and each
redirect entry has a transaction of its own, with a number below the next one. -/
def State.EntryLaw (s : State) : Prop :=
  s.rstn = true →
    (∀ (n : Fin 32) (i : Nat), (s.sources[n].slot i).pins =
      (s.redirects.filter fun e => e.source == n && e.slot == i).length) ∧
    (∀ n : Fin 32, ∀ y ∈ s.sources[n].slots, y.state = .free → y.pins = 0) ∧
    (s.redirects.map Redirect.tag).Nodup ∧ ∀ e ∈ s.redirects, e.tag < s.nextId

/-- R79, R81: every slot of a CLOSING source is FREE or RECLAIM. -/
def State.ClosingLaw (s : State) : Prop :=
  ∀ n : Fin 32, s.sources[n].state = .closing → ∀ y ∈ s.sources[n].slots, y.state = .free ∨ y.state = .reclaim

/-- R86, R88, R10: a header waits on a RECLAIM slot; its request is its source's initiator's and parks it, and no held read
does; its source has no other waiting header and no FILLING slot. -/
def State.WaitingLaw (s : State) : Prop :=
  s.rstn = true → ∀ n : Fin 32,
    (s.sources[n].slots.filter fun y => y.waiting.isSome).length ≤ 1 ∧
    ∀ y ∈ s.sources[n].slots, ∀ w, y.waiting = some w →
      y.state = .reclaim ∧ w.initiator = s.sources[n].initiator ∧ s.parks[w.initiator] = some w.request ∧
      s.sources[n].fillingCount = 0 ∧ ∀ e ∈ s.held, e.initiator ≠ w.initiator

/-- R10: an initiator has at most one held read. -/
def State.HeldApart (s : State) : Prop :=
  (s.held.map Held.initiator).Nodup

/-- R2, R157: no read is held while a RESTART drain runs. -/
def State.DrainLaw (s : State) : Prop :=
  s.drain ≠ none → s.held = []

/-- The laws of the slots, the redirect table and the held-read list together. -/
structure State.PathLaw (s : State) : Prop where
  empty      : s.EmptyLaw
  initiators : s.InitiatorLaw
  filling    : s.FillingLaw
  reclaim    : s.ReclaimLaw
  pins       : s.PinLaw
  entries    : s.EntryLaw
  closing    : s.ClosingLaw
  waiting    : s.WaitingLaw
  held       : s.HeldLaw
  apart      : s.HeldApart
  park       : s.ParkLaw
  drain      : s.DrainLaw

/-! ### Control and reporting -/

/-- R160: every settings word is in range. -/
def State.SettingsLaw (s : State) : Prop :=
  ∀ n : Fin 7, settingInRange n s.settings[n] = true

/-- R176: the unconsumed report records never exceed 15,359, and the consumer copy never passes the producer count. -/
def State.RingLaw (s : State) : Prop :=
  s.consumer ≤ s.producer ∧ s.producer - s.consumer ≤ 15359

/-- R183: at the end of an event every changed part of the status block has been rewritten. -/
def State.SettledLaw (s : State) : Prop :=
  s.dirty = []

end Sys2Proof.Machine
end

