-- ==== Sys2Proof/Certificates/Slice0/Obligations.lean ====
section
/-! DEFINITION. The statements about the bridge that are to be proved, one proposition each. The rules they come from are
named in their docstrings; the terms they use stand in Sys2Proof/Safety.lean. A statement about a command says that
`exec` answers a next state and what that state holds; where it gives the state as `u.Reports t`, every field that
reporting does not write is as in `u`, so that it is the frame as well. -/

section
open Sys2Proof Sys2Proof.Machine

/-! ### The step -/

/-- A step takes the command at the front of the queue and runs it on the state with the queue's rest; with an empty
queue the block idles (log entry 4). -/
def Obligations.StepRunsFrontCommand : Prop :=
  (∀ (c : Instr) (rest : List Instr) (s : State), s.pending = c :: rest → step s = exec c { s with pending := rest }) ∧
    ∀ s : State, s.pending = [] → step s = .next s

/-- No command stops the bridge, and none touches the queue of commands that wait. -/
def Obligations.NoCommandStops : Prop :=
  ∀ (c : Instr) (s : State), ∃ t, exec c s = .next t ∧ t.pending = s.pending

/-! ### Starts -/

/-- R19: at power-on, and at a release of RST_N that is low, the straps are sampled, the start-up writes stand in the
queue, and every block takes its reset value. What the links and the clock bring stays: the requests presented, the
time, and the model's own numbering and queue of commands (log entry 12). The model's choices (log entry 21, DESIGN CHOICE):
the start-up writes join the queue at the start itself, where R19 says within 2 µs, and a RESET_RELEASE while RST_N is high
only lets time pass. The start-up writes are 21, in their order, with their offsets in the control window and their lengths
in beats; the last beat of the last is the header beat with the start kind and the straps. -/
def Obligations.StartsResetEveryBlock : Prop :=
  ((∀ (dt : Nat) (cwb : BitVec 4) (s : State), ∃ t, exec (.powerOn dt cwb) s = .next t ∧
     t = { State.reset with
       pending := s.pending, cwb := cwb, startKind := .powerOn, ownQueue := startUpWrites .powerOn cwb t.now,
       now := (s.wait dt).now, presented := s.presented, nextId := s.nextId, orders := s.orders }) ∧
   (∀ (dt : Nat) (cwb : BitVec 4) (s : State), s.rstn = false → ∃ t, exec (.resetRelease dt cwb) s = .next t ∧
     t = { State.reset with
       pending := s.pending, cwb := cwb, startKind := .resetLine, ownQueue := startUpWrites .resetLine cwb t.now,
       now := (s.wait dt).now, presented := s.presented, nextId := s.nextId, orders := s.orders }) ∧
   ∀ (dt : Nat) (cwb : BitVec 4) (s : State), s.rstn = true → exec (.resetRelease dt cwb) s = .next (s.wait dt)) ∧
  (∀ (kind : StartKind) (cwb : BitVec 4) (now : Nat),
     (startUpWrites kind cwb now).map (fun w => (w.addr, w.beats.length)) =
         (List.range 4).map (fun i => (controlBaseOf cwb + 0x2800 + 256 * i, 4)) ++ [(controlBaseOf cwb + 0x1000, 1)] ++
           (List.range 16).map (fun i => (controlBaseOf cwb + 256 * i, 4)) ∧
       (startUpWrites kind cwb now).length = 21 ∧
       ((startUpWrites kind cwb now).getLast?.bind fun w => w.beats.getLast?) = some (fullBeat (headerBeat kind cwb)) ∧
       ∀ w ∈ startUpWrites kind cwb now, w.joined = now)

/-- R18, R27, R40, R137, R181: at the falling edge of RST_N everything taken, queued, held or in flight is abandoned
without an answer, every line is low, and no initiator is accepted. While RST_N is low nothing is taken: whatever command
comes, but a power-on or the release itself, only the clock moves, and the phase counter is held at 0; a request that an
initiator presents then, presenting none already, stays presented (R2, log entry 7). Beside that the state stays as it stands
until the release (log entry 21). -/
def Obligations.ResetLineAbandons : Prop :=
  (∀ (dt : Nat) (s : State), s.rstn = true → ∃ t, exec (.resetAssert dt) s = .next t ∧
     t.rstn = false ∧ t.outstanding = [] ∧ t.returned = [] ∧ t.stream = [] ∧ t.ownQueue = [] ∧ t.offered = [] ∧
     t.held = [] ∧ t.redirects = [] ∧ t.inFlight = [] ∧ t.inFlightOwn = [] ∧ (∀ i : Fin 64, t.parks[i] = none) ∧
     (∀ i, t.accept i = false) ∧ t.fpo = false ∧ (∀ m, t.markerLine m = false) ∧ t.attn = false ∧ t.phase = 0 ∧
     t.presented = s.presented ∧ t.waiting = []) ∧
  (∀ (c : Instr) (s : State), s.rstn = false → (∀ dt cwb, c ≠ .powerOn dt cwb) → (∀ dt cwb, c ≠ .resetRelease dt cwb) →
     (∀ dt r, c ≠ .requestTaken dt r) →
     ∃ n, s.now ≤ n ∧ exec c s = .next { s with now := n, phase := 0, returned := [], waiting := s.waitOrder }) ∧
  ∀ (dt : Nat) (r : Request) (s : State), s.rstn = false → r.wf = true →
     ∃ n, s.now ≤ n ∧ exec (.requestTaken dt r) s =
       .next { s with
         now := n, phase := 0, returned := [], waiting := s.waitOrder,
         presented := if ∃ q ∈ s.presented, q.initiator = r.initiator then s.presented else s.presented ++ [r] }

/-- R19 step 4: the system link opens when no start-up write is unanswered, and not before; a start-up write answered
FAULT gives its STORE_ERROR report then, with the PC of its response (log entry 20). The answer to the last start-up
write opens the link in the same event; the row of its own acts only in a state in which the condition stands, and changes
nothing in another (log entry 3). -/
def Obligations.SystemLinkOpens : Prop :=
  (∀ s : State, s.Calm → s.linkOpen = false → s.startUpUnanswered = false → s.startupFaults = [] →
    exec .systemLinkOpen s = .next { s.wait 0 with linkOpen := true }) ∧
  (∀ (s : State) (f : StartupFault), s.Calm → s.linkOpen = false → s.startUpUnanswered = false → s.startupFaults = [f] →
    ∃ t, exec .systemLinkOpen s = .next t ∧ ({ s.wait 0 with linkOpen := true, startupFaults := [] } : State).Reports t ∧
      s.Tells t .storeError f.write.kind.producer f.pc f.write.addr f.write.kind.detail) ∧
  (∀ s : State, s.Calm → (s.linkOpen = true ∨ s.startUpUnanswered = true) → exec .systemLinkOpen s = .next (s.wait 0)) ∧
  ∀ (s : State) (dt tag : Nat) (w : OwnWrite), s.Calm → s.linkOpen = false → s.inFlightOwn = [{ tag := tag, write := w }] →
    w.kind.isStartUp = true → s.ownQueue = [] → s.offered = [] → s.startupFaults = [] →
    exec (.ownWriteResponse dt tag true) s = .next { s.wait dt with inFlightOwn := [], linkOpen := true }

/-! ### Requests -/

/-- R4, R5: the class of a request, by its span, its kind and its initiator. One that runs past the last address of the 40-bit
address space is refused. One whole in the control window, 1 MiB from the straps' value times 1 GiB, is CONTROL; one whole in
one OPEN window is WINDOW; one that shares a byte with either otherwise is a straddle, and refused. Of the others a WRITE by the
initiator of a source that is not EMPTY, whole in its ring, is CAPTURE, and the rest is PLAIN. Where the statement asks for
one window or one source, spans and initiators do not repeat in a run (SpanLaw, InitiatorLaw).
R6, R9: a CONTROL or PLAIN request is taken and forwarded unchanged as one transaction.
R5, R145: a refused request, and a WINDOW WRITE, is answered FAULT by the bridge and does nothing else; the answer
waits behind the earlier requests of its initiator. -/
def Obligations.RequestForwardedOrRefused : Prop :=
  (∀ (r : Request) (s : State),
     let first := r.addr.toNat
     let past := first + 64 * r.access.length
     let inside (base length : Nat) : Prop := base ≤ first ∧ past ≤ base + length
     let shares (base length : Nat) : Prop := first < base + length ∧ base < past
     let control := s.cwb.toNat * 2 ^ 30
     let captures (n : Fin 32) : Prop := r.access.isWrite = true ∧ s.sources[n].state ≠ .empty ∧
       s.sources[n].initiator = r.initiator ∧
       inside s.sources[n].ringBase (s.sources[n].slotCount * s.sources[n].bufferLength * 64)
     (2 ^ 40 < past → s.classify r = .refused) ∧
     (inside control (2 ^ 20) → s.classify r = .control) ∧
     (past ≤ 2 ^ 40 → ¬inside control (2 ^ 20) →
       (∀ (w : Fin 8) (x : Window), s.windows[w] = some x → inside x.base x.length →
         (∀ (v : Fin 8) (y : Window), s.windows[v] = some y → inside y.base y.length → v = w) → s.classify r = .window w) ∧
       ((∀ (w : Fin 8) (x : Window), s.windows[w] = some x → ¬inside x.base x.length) →
         (shares control (2 ^ 20) → s.classify r = .refused) ∧
         (∀ (w : Fin 8) (x : Window), s.windows[w] = some x → shares x.base x.length → s.classify r = .refused) ∧
         (¬shares control (2 ^ 20) → (∀ (w : Fin 8) (x : Window), s.windows[w] = some x → ¬shares x.base x.length) →
           (∀ n, captures n → (∀ m, captures m → m = n) → s.classify r = .capture n) ∧
           ((∀ n, ¬captures n) → s.classify r = .plain))))) ∧
  (∀ (dt : Nat) (r : Request) (s : State), s.Ready r →
     (s.classify r = .plain → exec (.requestTaken dt r) s = .next { s.arrived dt r with
       nextId := s.nextId + 2,
       stream := s.stream ++ [⟨s.nextId + 1, .plain s.nextId, r.addr.toNat, r.access⟩] }) ∧
     (s.classify r = .control → exec (.requestTaken dt r) s = .next { s.arrived dt r with
       nextId := s.nextId + 2,
       stream := s.stream ++ [⟨s.nextId + 1, .control s.nextId, r.addr.toNat, r.access⟩] })) ∧
  ∀ (dt : Nat) (r : Request) (s : State), s.Ready r → s.IdLaw →
    (s.classify r = .refused ∨ ((∃ w, s.classify r = .window w) ∧ r.access.isWrite = true ∧ s.drain = none)) →
    ((∀ k ∈ s.outstanding, k.initiator ≠ r.initiator) →
      exec (.requestTaken dt r) s = .next { s.wait dt with
        nextId := s.nextId + 1,
        returned := [{ initiator := r.initiator, request := s.nextId, answer := .fault }] }) ∧
    ((∃ k ∈ s.outstanding, k.initiator = r.initiator) →
      (∀ k ∈ s.outstanding, k.initiator = r.initiator → k.answer = none) →
      exec (.requestTaken dt r) s = .next { s.wait dt with
        nextId := s.nextId + 1,
        outstanding := s.outstanding ++ [{ Taken.fresh s.nextId r.initiator with answer := some .fault }] })

/-- R146, R147: the chosen slot is a candidate of greatest local position, and of two with equal positions the one of
lower index; none is chosen only where none is a candidate. The outcome of a read follows the table of R147. -/
def Obligations.ChosenSlotAndOutcome : Prop :=
  (∀ (t : Stamp) (slots : List Slot),
    (chooseSlot t 0 slots = none → ∀ y ∈ slots, y.carries t = false) ∧
    ∀ i p, chooseSlot t 0 slots = some (i, p) → ∃ y, slots[i]? = some y ∧ y.carries t = true ∧ p = y.position ∧
      ∀ j z, slots[j]? = some z → z.carries t = true → z.position < p ∨ (z.position = p ∧ i ≤ j)) ∧
  ∀ (s : State) (w : Window),
    ((w.bound = false ∨ s.sources[w.source].state ≠ .live) → s.readOutcome w = .slug .notLive) ∧
    (w.bound = true → s.sources[w.source].state = .live →
      (∀ i p, chooseSlot w.target 0 s.sources[w.source].slots = some (i, p) →
        ((s.sources[w.source].slot i).state = .complete → s.readOutcome w = .redirect i) ∧
        ((s.sources[w.source].slot i).state = .filling → s.held.length < 16 → s.readOutcome w = .hold i) ∧
        ((s.sources[w.source].slot i).state = .filling → 16 ≤ s.held.length → s.readOutcome w = .listFull)) ∧
      (chooseSlot w.target 0 s.sources[w.source].slots = none →
        ((∃ y ∈ s.sources[w.source].slots, y.state = .reclaim ∧ y.stamp = some w.target) → s.readOutcome w = .slug .reclaimed) ∧
        ((∀ y ∈ s.sources[w.source].slots, y.state = .reclaim → y.stamp ≠ some w.target) → s.readOutcome w = .slug .noSlot)))

/-- R148, R151: a WINDOW READ whose outcome is a redirected read takes a redirect entry and a pin of its slot, and reads
the slot at the read's offset; one whose outcome is a held read enters the list with its target and deadline, and its
initiator is parked. One that would need a redirect entry while all 32 are in use stays presented.
R146, R2: of the reads that wait for a redirect entry, those that began waiting before a presented read are decided before
it (those that begin at one event in the order of their presenting, log entry 29): as long as one of them could be taken, the
read stays presented, whether it waits itself or would need an entry.
R149, R150, R156: a WINDOW READ answered with slug reads the slug buffer at its offset, with no entry and no pin;
it makes a SLUG_SERVED report when its target differs from the last one reported, and a HELD_LIST_FULL report when the
held-read list is full. -/
def Obligations.WindowReadTaken : Prop :=
  (∀ (dt n : Nat) (r : Request) (s : State) (w : Fin 8) (x : Window), s.Ready r → s.drain = none → s.classify r = .window w →
     s.windows[w] = some x → r.access = .read n →
     (∀ i, s.readOutcome x = .redirect i → s.redirects.length < 32 →
       (∀ q ∈ s.presented, q.initiator ∈ s.waitOrder → s.couldTake q = false) →
       exec (.requestTaken dt r) s = .next (({ s.arrived dt r with
         nextId := s.nextId + 2,
         stream := s.stream ++ [⟨s.nextId + 1, .redirected s.nextId, s.sources[x.source].slotAddress i + (r.addr.toNat - x.base), .read n⟩],
         redirects := s.redirects ++ [⟨s.nextId + 1, w, r.initiator, x.source, i⟩] } : State).putSlot x.source i
             { s.sources[x.source].slot i with pins := (s.sources[x.source].slot i).pins + 1 })) ∧
     (∀ i, s.readOutcome x = .hold i →
       exec (.requestTaken dt r) s = .next { s.arrived dt r with
         parks := s.parks.set r.initiator (some s.nextId),
         held := s.held ++ [
           { request := s.nextId, window := w, initiator := r.initiator, offset := r.addr.toNat - x.base, beats := n,
             target := x.target, source := x.source, slot := i, deadline := (s.wait dt).now + x.holdLimit * 27 }] }) ∧
     (∀ i, s.readOutcome x = .redirect i → 32 ≤ s.redirects.length →
       exec (.requestTaken dt r) s = .next { s.wait dt with presented := s.presented ++ [r] })) ∧
  (∀ (dt n : Nat) (r : Request) (s : State) (w : Fin 8) (x : Window), s.Ready r → s.drain = none → s.classify r = .window w →
    s.windows[w] = some x → r.access = .read n → (∃ i, s.readOutcome x = .redirect i) →
    (∃ q ∈ s.presented, q.initiator ∈ s.waitOrder ∧ s.couldTake q = true) →
    exec (.requestTaken dt r) s = .next { s.wait dt with presented := s.presented ++ [r] }) ∧
  (∀ (s : State) (q r : Request) (before after : List (Fin 64)), q ∈ s.presented →
    s.waitOrder = before ++ r.initiator :: after → r.initiator ∉ before → q.initiator ∈ before → s.couldTake q = true →
    s.canTake r = false) ∧
  (∀ (s : State) (r : Request) (after : List (Fin 64)), s.waitOrder = r.initiator :: after → s.canTake r = s.couldTake r) ∧
  ∀ (dt n : Nat) (r : Request) (s : State) (w : Fin 8) (x : Window), s.Ready r → s.drain = none → s.classify r = .window w →
    s.windows[w] = some x → r.access = .read n →
    let u : State := { s.arrived dt r with
      nextId := s.nextId + 2,
      stream := s.stream ++ [⟨s.nextId + 1, .slug s.nextId, x.slugBase + (r.addr.toNat - x.base), .read n⟩] }
    (∀ c, s.readOutcome x = .slug c → x.slugReported = some x.target → exec (.requestTaken dt r) s = .next u) ∧
    (∀ c, s.readOutcome x = .slug c → x.slugReported ≠ some x.target →
      ∃ t, exec (.requestTaken dt r) s = .next t ∧
        (u.putWindow w (some { x with slugReported := some x.target })).Reports t ∧ t.eventFlags.window = true ∧
        s.Tells t .slugServed w.val s.pc x.target.count (byteWord [x.target.frac, c.code, x.source.val])) ∧
    (s.readOutcome x = .listFull →
      ∃ t, exec (.requestTaken dt r) s = .next t ∧ u.Reports t ∧ t.eventFlags.window = true ∧
        s.Tells t .heldListFull w.val s.pc x.target.count (byteWord [x.target.frac, r.initiator.val]))

/-- R8, R76, R80: a capture write of any number of beats, in any slots. One of a FAULTED source passes to memory with the
stamp area of each header candidate written REJECTED, SOURCE_FAULTED; one of a CLOSING source passes unchanged. Nothing of the
source changes.
R89: data beats of a QUALIFYING or LIVE source are forwarded as they came, in one transaction; those that fall in the FILLING
slot and do not reach the buffer length are counted, and those that fall in other slots change nothing of the source. -/
def Obligations.CaptureBeatsPassed : Prop :=
  ∀ (dt : Nat) (r : Request) (s : State) (n : Fin 32) (bs : List WriteBeat), s.Ready r → s.IdLaw → s.classify r = .capture n →
    r.access = .write bs →
    let x := s.sources[n]
    let forwarded (ds : List WriteBeat) : State := { s.wait dt with
      nextId := s.nextId + 2,
      outstanding := s.outstanding ++ [{ Taken.fresh s.nextId r.initiator with parts := 1 }],
      stream := s.stream ++ [⟨s.nextId + 1, .capture s.nextId, r.addr.toNat, .write ds⟩] }
    let fallIn (i : Nat) : Nat := (List.range bs.length).countP fun k => (x.place (r.addr.toNat + 64 * k)).1 == i
    (x.state = .faulted → exec (.requestTaken dt r) s = .next (forwarded (x.faultedBeats r.addr.toNat bs))) ∧
    (x.state = .closing → exec (.requestTaken dt r) s = .next (forwarded bs)) ∧
    ((x.state = .qualifying ∨ x.state = .live) → (∀ k b, bs[k]? = some b → x.headerAt (r.addr.toNat + 64 * k) b = false) →
      ((∀ i, (x.slot i).state = .filling → fallIn i = 0) → exec (.requestTaken dt r) s = .next (forwarded bs)) ∧
      ∀ i, x.fillingSlot = some i → x.fillingCount = 1 → (x.slot i).beats + fallIn i < x.bufferLength →
        exec (.requestTaken dt r) s =
          .next ((forwarded bs).putSlot n i { x.slot i with beats := (x.slot i).beats + fallIn i }))

/-- R69: the checks of a header candidate, in their order, and the reason that the first to fail gives: LEAD, the eight bytes
of the lead pattern; IDENTITY, each identity byte that the match mask compares; KEY, the take key, if the source has one; ORDER,
of a LIVE source with a previous header, a greater local position, as unsigned 64-bit numbers. One that fails none is accepted.
R8, R69 to R73, R87, R89, R97, R119, R120: a header candidate that finds no FILLING slot to complete and its own slot
unpinned, followed in its request by any number of data beats of its slot, which are counted and do not fill it. Rejected below the limit, it is counted and reported and takes its slot unstamped; accepted in QUALIFYING short of the
qualify count, it moves the run and takes its slot unstamped; accepted in LIVE without CLAP and ROLL, it is stamped, and with
the late monitor on the latched late state follows it, with a LATE_CHANGE report of a change that the edge selects. In each
case the beat goes on with its stamp area written, and the source's beat is rewritten where R183 says so: for a new reject
count, a new last stamp and a new latched state. -/
def Obligations.HeaderTakesSlot : Prop :=
  (∀ (x : Source) (b : Beat), (x.state = .qualifying ∨ x.state = .live) →
    let lead : Prop := (List.range 8).map (fun i => field b i 1) = [0xA6, 0x59, 0xA6, 0x59, 0x5A, 0x95, 0x5A, 0x95]
    let identity : Prop := ∀ i, i < 8 → x.matchMask.getLsbD i = true →
      field b (8 + i) 1 = (x.identity.extractLsb' (8 * i) 8).toNat
    let key : Prop := ∀ k, x.takeKey = some k → field b 32 8 = k.toNat
    let order : Prop := x.state = .qualifying ∨ ∀ h, x.previous = some h → h.position.toNat < field b 16 8
    (¬lead → x.check b = .rejected .lead) ∧
    (lead → ¬identity → x.check b = .rejected .identity) ∧
    (lead → identity → ¬key → x.check b = .rejected .key) ∧
    (lead → identity → key → ¬order → x.check b = .rejected .order) ∧
    (lead → identity → key → order → x.check b = .accepted)) ∧
  ∀ (dt : Nat) (r : Request) (s : State) (n : Fin 32), s.Ready r → s.IdLaw → s.classify r = .capture n →
    s.sources[n].fillingSlot = none → ∀ (b : WriteBeat) (rest : List WriteBeat), r.access = .write (b :: rest) →
    s.sources[n].headerAt r.addr.toNat b = true → rest.length + 2 ≤ s.sources[n].bufferLength →
    let x := s.sources[n]
    let i := (x.place r.addr.toNat).1
    let y := x.slot i
    let p := headerPosition b.data
    let forwarded (d : Beat) : State := { s.wait dt with
      nextId := s.nextId + 2,
      outstanding := s.outstanding ++ [{ Taken.fresh s.nextId r.initiator with parts := 1 }],
      stream := s.stream ++ [⟨s.nextId + 1, .capture s.nextId, r.addr.toNat, .write ({ b with data := d } :: rest)⟩] }
    let fill (st : Option Stamp) (f : Fill) : Slot := { y.fillWith st f with beats := rest.length + 1 }
    y.pins = 0 → x.DataBeats (r.addr.toNat + 64) i rest →
    (∀ reason, (x.state = .qualifying ∨ x.state = .live) → x.check b.data = .rejected reason → x.rejects + 1 < x.rejectLimit →
      ∃ t, exec (.requestTaken dt r) s = .next t ∧
        ((forwarded (rejectedBeat b.data reason)).putSource n
          ({ x with rejects := x.rejects + 1 }.withSlot i (fill none (x.fillOf b.data StampFlags.none 0)))).Reports t ∧
        s.Tells t .headerReject n.val s.pc (byteWord [reason.code, i]) (field b.data 16 4) ∧ t.Shows (sourcePart n)) ∧
    (x.state = .qualifying → x.check b.data = .accepted →
      let run := if x.continues i p then x.run + 1 else 1
      run < x.qualifyCount →
      ∃ t, exec (.requestTaken dt r) s = .next t ∧
        ((forwarded (qualifyingBeat b.data)).putSource n
          ({ x with rejects := 0, run := run, previous := some { position := p, slot := i } }.withSlot i
            (fill none (x.fillOf b.data StampFlags.none 0)))).Reports t ∧ (x.rejects ≠ 0 → t.Shows (sourcePart n))) ∧
    (x.state = .live → x.check b.data = .accepted → headerClap b.data = false → headerRoll b.data = false →
      let st := x.stampOf s.rate p s.pc (s.wait dt).phase
      let l := x.lateness s.rate s.pc st.1.count
      let flags := x.flagsOf st.2 (x.gapOf p) l
      ∃ t, exec (.requestTaken dt r) s = .next t ∧
        ((forwarded (stampedBeat b.data st.1 flags)).putSource n
          ({ x with
            rejects := 0, previous := some { position := p, slot := i }, lastStamp := some st.1, lateMonitor := x.lateAfter l }.withSlot i
            (fill (some st.1) (x.fillOf b.data flags (x.gapOf p))))).Reports t ∧
        s.TellsLate t n l s.pc st.1.count ∧ (x.lateAfter l = x.lateMonitor → t.producer = s.producer) ∧ t.Shows (sourcePart n))

/-- R71, R75: a reject that reaches the reject limit, at a header that finds no FILLING slot and its own slot unpinned. A
QUALIFYING source begins its run again, with its previous header absent. A LIVE source that no running take has as a member
becomes FAULTED: the header's slot, which it has just taken, completes FAULTED, the reject count keeps its value, and the
HEADER_REJECT report is followed by a SOURCE_STATE report of cause REJECT_LIMIT. -/
def Obligations.RejectLimitReached : Prop :=
  ∀ (dt : Nat) (r : Request) (s : State) (n : Fin 32) (b : WriteBeat) (reason : RejectReason), s.Ready r → s.IdLaw →
    s.classify r = .capture n → r.access = .write [b] → (s.sources[n].place r.addr.toNat).2 = 0 → b.enables = allEnables →
    s.sources[n].fillingSlot = none → 2 ≤ s.sources[n].bufferLength → s.HeldLaw →
    let x := s.sources[n]
    let i := (x.place r.addr.toNat).1
    let y := x.slot i
    let taken : Slot := y.fillWith none (x.fillOf b.data StampFlags.none 0)
    let forwarded : State := { s.wait dt with
      nextId := s.nextId + 2,
      outstanding := s.outstanding ++ [{ Taken.fresh s.nextId r.initiator with parts := 1 }],
      stream := s.stream ++ [⟨s.nextId + 1, .capture s.nextId, r.addr.toNat, .write [{ b with data := rejectedBeat b.data reason }]⟩] }
    y.pins = 0 → i < x.slots.length → x.check b.data = .rejected reason → x.rejectLimit ≤ x.rejects + 1 →
    (x.state = .qualifying → ∃ t, exec (.requestTaken dt r) s = .next t ∧
      (forwarded.putSource n ({ x with rejects := 0, run := 0, previous := none }.withSlot i taken)).Reports t ∧
      s.Tells t .headerReject n.val s.pc (byteWord [reason.code, i]) (field b.data 16 4) ∧ t.Shows (sourcePart n)) ∧
    (x.state = .live → (∀ g, x.group = some g → s.groups[g].state = .idle ∨ s.groups[g].state = .armed) →
      ∃ t, exec (.requestTaken dt r) s = .next t ∧
        (forwarded.putSource n ({ x with rejects := x.rejects + 1, state := .faulted }.withSlot i
          { taken with state := .complete, kind := some .faulted })).Reports t ∧
        s.Tells t .headerReject n.val s.pc (byteWord [reason.code, i]) (field b.data 16 4) ∧
        s.TellsAlso t .sourceState n.val s.pc (byteWord [2, 3]) 3 ∧ t.eventFlags.sourceFault = true ∧ t.Shows (sourcePart n))

/-- R8, R11, R86, R89, R90, R101 to R103, R152: a slot completes within a request. FULL, at the data beat that brings the beats counted
to the buffer length. SHORT, at the next header, which then takes its own slot, or waits if that holds pins (also the pins of
the reads just released, where it is the slot completed). FULL at once, at a header of a source whose buffers are one beat
long: the MEDIA, SLATE or CLAP entry of a stamped one, and no entry of one not stamped. The entry is the first of the event;
the reads held on the slot are released, and join the stream behind the part that carries the beat (log entry 30), or behind
the part before a header that waits.
A request of several beats whose first ones fill the FILLING slot: they are all of it; or an accepted header of another slot
follows, without CLAP, with a rest of any length. On an unpinned slot the header takes it, the rest, here data beats of its
slot that do not fill it, is counted there, and the request goes on as one part. On a pinned slot the header waits with the
rest, and the beats before it go on as a part of their own. -/
def Obligations.SlotCompletes : Prop :=
  (∀ (dt : Nat) (r : Request) (s : State) (n : Fin 32) (b : WriteBeat), s.Ready r → s.IdLaw →
    s.classify r = .capture n → r.access = .write [b] → s.PathLaw → (s.sources[n].state = .qualifying ∨ s.sources[n].state = .live) →
    let x := s.sources[n]
    let i := (x.place r.addr.toNat).1
    let y := x.slot i
    let asked : List (Cargo × Nat × Access) := s.stream.map Transaction.asks
    let part (d : Beat) : Cargo × Nat × Access := (.capture s.nextId, r.addr.toNat, .write [{ b with data := d }])
    let header := (x.place r.addr.toNat).2 = 0 ∧ b.enables = allEnables
    (¬header → y.state = .filling → x.bufferLength ≤ y.beats + 1 →
      ∃ t, exec (.requestTaken dt r) s = .next t ∧ s.Completes t n i .full ∧
        t.sources = s.sources.set n (x.withSlot i
          { y with
            state := .complete, beats := y.beats + 1, kind := some .full, pins := y.pins + (s.redirectable n i).length }) ∧
        t.stream.map Transaction.asks = asked ++ part b.data :: s.readsReleased n i) ∧
    (∀ j, header → x.fillingSlot = some j → i < x.slots.length →
      let k := if i = j then y.pins + (s.redirectable n j).length else y.pins
      ∃ t, exec (.requestTaken dt r) s = .next t ∧ s.Completes t n j .short ∧
        (i ≠ j → t.sources[n].slot j = { x.slot j with
          state := .complete, kind := some .short, pins := (x.slot j).pins + (s.redirectable n j).length }) ∧
        (k = 0 → (t.sources[n].slot i).beats = 1 ∧ (t.sources[n].slot i).pins = 0 ∧
          (t.sources[n].slot i).fill.map Fill.position = some (headerPosition b.data) ∧
          ∃ d, t.stream.map Transaction.asks = asked ++ part d :: s.readsReleased n j) ∧
        (0 < k → (t.sources[n].slot i).state = .reclaim ∧ (t.sources[n].slot i).pins = k ∧
          (t.sources[n].slot i).waiting.map Waiting.beat = some b.data ∧ t.parks[r.initiator] = some s.nextId ∧
          t.stream.map Transaction.asks = asked ++ s.readsReleased n j)) ∧
    (header → x.fillingSlot = none → x.bufferLength = 1 → i < x.slots.length → y.pins = 0 → x.check b.data = .accepted →
      let st := x.stampOf s.rate (headerPosition b.data) s.pc (s.wait dt).phase
      let l := x.lateness s.rate s.pc st.1.count
      let flags := x.flagsOf st.2 (x.gapOf (headerPosition b.data)) l
      let f := x.fillOf b.data flags (x.gapOf (headerPosition b.data))
      (x.state = .live → ∃ t, exec (.requestTaken dt r) s = .next t ∧
        s.EntersAt t s.indexSeq (s.slotEntryOf n i .full st.1 f) ∧
        t.sources[n].slot i = { y.fillWith (some st.1) f with state := .complete, kind := some .full } ∧
        t.stream.map Transaction.asks = asked ++ [part (stampedBeat b.data st.1 flags)]) ∧
      (x.state = .qualifying → (if x.continues i (headerPosition b.data) then x.run + 1 else 1) < x.qualifyCount →
        ∃ t, exec (.requestTaken dt r) s = .next t ∧ t.indexSeq = s.indexSeq ∧
          t.sources[n].slot i =
            { y.fillWith none (x.fillOf b.data StampFlags.none 0) with state := .complete, kind := some .full } ∧
          t.stream.map Transaction.asks = asked ++ [part (qualifyingBeat b.data)]))) ∧
  ∀ (dt : Nat) (r : Request) (s : State) (n : Fin 32), s.Ready r → s.IdLaw →
    s.classify r = .capture n → (s.sources[n].state = .qualifying ∨ s.sources[n].state = .live) → s.PathLaw →
    ∀ j, s.sources[n].fillingSlot = some j → ∀ lead : List WriteBeat, lead ≠ [] → s.sources[n].DataBeats r.addr.toNat j lead →
    (s.sources[n].slot j).beats + lead.length = s.sources[n].bufferLength →
    let x := s.sources[n]
    let y := x.slot j
    let filled : Slot := { y with
      state := .complete, beats := x.bufferLength, kind := some .full, pins := y.pins + (s.redirectable n j).length }
    let asked (part : List WriteBeat) : List (Cargo × Nat × Access) :=
      s.stream.map Transaction.asks ++ (.capture s.nextId, r.addr.toNat, .write part) :: s.readsReleased n j
    (r.access = .write lead →
      ∃ t, exec (.requestTaken dt r) s = .next t ∧ s.Completes t n j .full ∧ t.sources = s.sources.set n (x.withSlot j filled) ∧
        t.stream.map Transaction.asks = asked lead) ∧
    ∀ (b : WriteBeat) (rest : List WriteBeat), r.access = .write (lead ++ b :: rest) →
      let addr := r.addr.toNat + 64 * lead.length
      let i := (x.place addr).1
      x.headerAt addr b = true → x.check b.data = .accepted → headerClap b.data = false → i < x.slots.length →
      ((x.slot i).pins = 0 → x.DataBeats (addr + 64) i rest → rest.length + 2 ≤ x.bufferLength →
        ∃ t, exec (.requestTaken dt r) s = .next t ∧ s.Completes t n j .full ∧ t.sources[n].slot j = filled ∧
          (t.sources[n].slot i).state = .filling ∧ (t.sources[n].slot i).beats = rest.length + 1 ∧
          (t.sources[n].slot i).fill.map Fill.position = some (headerPosition b.data) ∧
          ∃ d, t.stream.map Transaction.asks = asked (lead ++ { b with data := d } :: rest)) ∧
      (0 < (x.slot i).pins →
        ∃ t, exec (.requestTaken dt r) s = .next t ∧ s.Completes t n j .full ∧ t.sources[n].slot j = filled ∧
          t.sources[n].slot i = { x.slot i with
            state := .reclaim, waiting := some
              { request := s.nextId, initiator := r.initiator, beat := b.data, addr := addr, judgement := .accepted,
                examinedLive := decide (x.state = .live), gapSize := x.gapOf (headerPosition b.data), arrivalPc := s.pc,
                arrivalPhase := (s.wait dt).phase, rest := rest } } ∧
          t.parks[r.initiator] = some s.nextId ∧
          { Taken.fresh s.nextId r.initiator with parts := 1, forming := true } ∈ t.outstanding ∧
          t.stream.map Transaction.asks = asked lead)

/-- R74: a camera or sound source without an anchor whose run reaches its qualify count becomes LIVE at that header,
with a QUALIFY anchor at the header's position, and the header is stamped by it.
R72, R74, R103: a slate becomes LIVE so without an anchor, and its header is stamped and entered; the CLAP and ROLL flags of
that header, which was examined in QUALIFYING, are not handed on (log entry 37). -/
def Obligations.QualifiedSourceGoesLive : Prop :=
  (∀ (dt : Nat) (r : Request) (s : State) (n : Fin 32) (b : WriteBeat), s.Ready r → s.IdLaw → s.classify r = .capture n →
     r.access = .write [b] → (s.sources[n].place r.addr.toNat).2 = 0 → b.enables = allEnables →
     s.sources[n].fillingSlot = none → 2 ≤ s.sources[n].bufferLength → s.sources[n].state = .qualifying →
     s.sources[n].kind ≠ .slate → s.sources[n].anchors = [] → s.sources[n].check b.data = .accepted →
     headerClap b.data = false →
     let x := s.sources[n]
     let i := (x.place r.addr.toNat).1
     let pc := countAdd s.rate s.pc (-(x.latency : Int))
     i < x.slots.length → (x.slot i).pins = 0 →
     x.qualifyCount ≤ (if x.continues i (headerPosition b.data) then x.run + 1 else 1) →
     ∃ t, exec (.requestTaken dt r) s = .next t ∧ t.sources[n].state = .live ∧
       t.sources[n].anchors = [{ pc := pc, position := headerPosition b.data, base := pc % 5, origin := .qualify }] ∧
       t.sources[n].lastStamp = some { count := pc, frac := 0 } ∧
       (t.sources[n].slot i).state = .filling ∧ (t.sources[n].slot i).stamp = some { count := pc, frac := 0 } ∧
       s.Tells t .sourceState n.val s.pc (byteWord [1, 2]) 2 ∧ t.Shows (sourcePart n) ∧
       ∀ m : Fin 32, m ≠ n → t.sources[m] = s.sources[m]) ∧
  ∀ (dt : Nat) (r : Request) (s : State) (n : Fin 32) (b : WriteBeat), s.Ready r → s.IdLaw → s.classify r = .capture n →
    r.access = .write [b] → (s.sources[n].place r.addr.toNat).2 = 0 → b.enables = allEnables →
    s.sources[n].fillingSlot = none → s.sources[n].bufferLength = 1 → s.sources[n].state = .qualifying →
    s.sources[n].kind = .slate → s.sources[n].check b.data = .accepted → s.HeldLaw →
    let x := s.sources[n]
    let i := (x.place r.addr.toNat).1
    let st := slateStamp s.rate s.pc (s.wait dt).phase x.latencyTicks
    i < x.slots.length → (x.slot i).pins = 0 →
    x.qualifyCount ≤ (if x.continues i (headerPosition b.data) then x.run + 1 else 1) →
    ∃ t, exec (.requestTaken dt r) s = .next t ∧ t.sources[n].state = .live ∧ t.sources[n].anchors = x.anchors ∧
      t.sources[n].lastStamp = some st ∧ (t.sources[n].slot i).state = .complete ∧ (t.sources[n].slot i).stamp = some st ∧
      t.indexSeq = s.indexSeq + 1 ∧ t.claps = s.claps ∧ t.groups = s.groups ∧ t.markers = s.markers ∧
      s.Tells t .sourceState n.val s.pc (byteWord [1, 2]) 2 ∧ t.Shows (sourcePart n)

/-- R110, R112 to R116: a CLAP header that is stamped, with the late monitor off, finds no FILLING slot and its own slot
unpinned. A slate's record without ROLL opens the match of its group: the clap point is the record's stamp, frames
remaining is the clap window of S5, every camera and sound member is expected, and the match is closed at once if there is
none; each marker line triggered by the clap of the group starts its train. A camera's or sound source's header that an
OPEN match expects unmatched is paired: the member is marked matched, and the match closes when none is left unmatched; the
candidate anchor is adopted in silence up to the fine threshold, by the slip mode with a SLIP report above it, and above the
coarse limit the list stays and the source is FAULTED. (Sound: where the clap position is not below the offset o; the
manual states no candidate otherwise, log entry 11. The slip is an integer, reckoned from the positions as numbers, log
entry 26.) -/
def Obligations.ClapOpensAndPairs : Prop :=
  ∀ (dt : Nat) (r : Request) (s : State) (n : Fin 32) (b : WriteBeat) (g : Fin 8), s.Ready r → s.IdLaw →
    s.classify r = .capture n → r.access = .write [b] → (s.sources[n].place r.addr.toNat).2 = 0 → b.enables = allEnables →
    s.sources[n].fillingSlot = none → s.sources[n].state = .live → s.sources[n].check b.data = .accepted →
    headerClap b.data = true → s.sources[n].lateMonitor.on = false → s.sources[n].group = some g →
    let x := s.sources[n]
    let p := headerPosition b.data
    (x.slot (x.place r.addr.toNat).1).pins = 0 →
    (x.kind = .slate → x.bufferLength = 1 → headerRoll b.data = false →
      let member (m : Fin 32) : Prop := s.sources[m].group = some g ∧ s.sources[m].kind ≠ .slate
      ∃ t, exec (.requestTaken dt r) s = .next t ∧
        ((∀ m, ¬member m) → t.claps[g] = none) ∧
        ((∃ m, member m) → ∃ c, t.claps[g] = some c ∧ c.slate = n ∧ c.remaining = s.clapWindow ∧
          c.point = slateStamp s.rate s.pc (s.wait dt).phase x.latencyTicks ∧
          ∀ (m : Fin 32) (u : Bool), (m, u) ∈ c.expected ↔ u = false ∧ member m) ∧
        (∀ h : Fin 8, h ≠ g → t.claps[h] = s.claps[h]) ∧
        ∀ k : Fin 4, t.markers[k] = if s.markers[k].trigger = .clap g then s.markers[k].start t.now else s.markers[k]) ∧
    (x.kind ≠ .slate → 2 ≤ x.bufferLength → ∀ c, s.claps[g] = some c → (n, false) ∈ c.expected →
      let marked := { c with expected := c.expected.map fun (e : Fin 32 × Bool) => if e.1 = n then (n, true) else e }
      let judged (a candidate : Anchor) (slip : Int) (fine coarse : Nat) : Prop :=
        ∃ t, exec (.requestTaken dt r) s = .next t ∧
          t.claps[g] = (if ∀ e ∈ c.expected, e.1 = n ∨ e.2 = true then none else some marked) ∧
          (∀ h : Fin 8, h ≠ g → t.claps[h] = s.claps[h]) ∧
          (slip.natAbs ≤ fine → t.sources[n].anchors = (candidate :: x.anchors).take 8 ∧
            t.sources[n].state = .live ∧ t.producer = s.producer) ∧
          (fine < slip.natAbs → slip.natAbs ≤ coarse → t.sources[n].state = .live ∧ t.eventFlags.slip = true ∧
            t.sources[n].anchors = (if s.slipAdopt then (candidate :: x.anchors).take 8 else x.anchors) ∧
            s.Tells t .slip n.val s.pc (int64 (saturate32 slip)) (byteWord [if s.slipAdopt then 2 else 3, g.val, a.origin.code])) ∧
          (coarse < slip.natAbs → t.sources[n].state = .faulted ∧ t.sources[n].anchors = x.anchors ∧
            t.eventFlags.slip = true ∧ t.eventFlags.sourceFault = true ∧
            s.Tells t .slip n.val s.pc (int64 (saturate32 slip)) (byteWord [1, g.val, a.origin.code]))
      (x.kind = .camera →
        let a := (selectAnchor x.anchors p).1
        judged a { pc := c.point.count, position := p, base := c.point.count % 5, origin := .slate }
          (a.position.toNat + signedDiff s.rate c.point.count a.pc * x.speedRatio - p.toNat)
          ([1, 2, 3, 4, 6, 8, 12, 16].getD s.cameraStep 0) 250) ∧
      (x.kind = .sound →
        let position := p + BitVec.ofNat 64 (headerClapOffset b.data)
        let a := (selectAnchor x.anchors position).1
        let d := signedDiff s.rate c.point.count a.pc
        let o := c.point.frac * samplesPerFrame s.rate x.sampleRate (cadencePosition a.base d) / s.rate.period
        o ≤ position.toNat →
        judged a { pc := c.point.count, position := position - BitVec.ofNat 64 o, base := c.point.count % 5, origin := .slate }
          (a.position.toNat + span s.rate x.sampleRate a.base d + o - position.toNat)
          ([8, 16, 48, 96, 240, 480, 960, 2000].getD s.soundStep 0 * x.sampleRate.multiplier)
          (48000 * x.sampleRate.multiplier)))

/-- R8, R10, R11, R86: an accepted header of a LIVE source that finds its slot pinned waits: the slot becomes RECLAIM with
the header, its arrival and the rest of its request, whatever that holds, and the initiator is parked. The beats of the request
before the header, here data beats with no slot FILLING, are forwarded as a part of their own; of the header and the rest
nothing is forwarded yet. -/
def Obligations.HeaderWaitsOnPinnedSlot : Prop :=
  ∀ (dt : Nat) (r : Request) (s : State) (n : Fin 32), s.Ready r → s.IdLaw → s.classify r = .capture n →
    s.sources[n].state = .live → s.sources[n].fillingSlot = none →
    ∀ (lead : List WriteBeat) (b : WriteBeat) (rest : List WriteBeat), r.access = .write (lead ++ b :: rest) →
    (∀ k c, lead[k]? = some c → s.sources[n].headerAt (r.addr.toNat + 64 * k) c = false) →
    let x := s.sources[n]
    let addr := r.addr.toNat + 64 * lead.length
    let i := (x.place addr).1
    let y := x.slot i
    let p := headerPosition b.data
    let w : Waiting :=
      { request := s.nextId, initiator := r.initiator, beat := b.data, addr := addr, judgement := .accepted,
        examinedLive := true, gapSize := x.gapOf p, arrivalPc := s.pc, arrivalPhase := (s.wait dt).phase, rest := rest }
    let forwarded : State :=
      if lead = [] then
        { s.wait dt with
          nextId := s.nextId + 1, outstanding := s.outstanding ++ [{ Taken.fresh s.nextId r.initiator with forming := true }] }
      else
        { s.wait dt with
          nextId := s.nextId + 2,
          outstanding := s.outstanding ++ [{ Taken.fresh s.nextId r.initiator with parts := 1, forming := true }],
          stream := s.stream ++ [⟨s.nextId + 1, .capture s.nextId, r.addr.toNat, .write lead⟩] }
    x.headerAt addr b = true → x.check b.data = .accepted → 0 < y.pins →
    ∃ t, exec (.requestTaken dt r) s = .next t ∧
      (({ forwarded with parks := s.parks.set r.initiator (some s.nextId) } : State).putSource n
        ({ x with rejects := 0, previous := some { position := p, slot := i } }.withSlot i
          { y with state := .reclaim, waiting := some w })).Reports t

/-! ### Responses -/

/-- R13, R14: each time the store link can take a transaction. The oldest own write goes when the queue stands at the
high mark, when it is over the age limit, or when no forwarded transaction is ready, and the oldest offered own write
joins the queue in its place; otherwise the oldest forwarded transaction goes.
The age limit: at the first tick at which the oldest own write is over the age limit, only time has passed and the
arbiter's next choice finds it so (log entries 22, 23); an offered own write joins a queue that has room, and no other (in a
run it does so in the event that made the room, as the first clause says; log entry 3).
R17, R179: an own write answered OKAY needs nothing more; one answered FAULT is not issued again, and a STORE_ERROR
report names its producer, its address and its detail. -/
def Obligations.OwnWritesIssuedAndAnswered : Prop :=
  ((∀ (dt : Nat) (s : State), s.Calm → s.QueueLaw → 1 ≤ s.highMark →
      (∀ w ws, s.ownQueue = w :: ws →
        (s.highMark ≤ s.ownQueue.length ∨ s.ageLimit * 27 < (s.wait dt).now - w.joined ∨ s.stream = []) →
        let u : State := { s.wait dt with
          nextId := s.nextId + 1, inFlightOwn := s.inFlightOwn ++ [{ tag := s.nextId, write := w }] }
        (s.offered = [] → exec (.arbiterChoice dt) s = .next { u with ownQueue := ws }) ∧
        ∀ o os, s.offered = o :: os →
          exec (.arbiterChoice dt) s = .next { u with ownQueue := ws ++ [{ o with joined := u.now }], offered := os }) ∧
      (∀ x xs, s.stream = x :: xs → s.ownQueue.length < s.highMark →
        (∀ w ∈ s.ownQueue.head?, (s.wait dt).now - w.joined ≤ s.ageLimit * 27) →
        exec (.arbiterChoice dt) s = .next { s.wait dt with stream := xs, inFlight := s.inFlight ++ [x] }) ∧
      (s.ownQueue = [] → s.stream = [] → exec (.arbiterChoice dt) s = .next (s.wait dt))) ∧
   ((∀ (s : State) (d : Nat), s.Calm → s.Due s.ageDue d →
      exec .ownWriteAgeLimit s = .next (s.advanceTo d) ∧ (s.advanceTo d).ownOverAge = true) ∧
    (∀ (s : State) (o : OwnWrite) (os : List OwnWrite), s.Calm → s.offered = o :: os → s.ownQueue.length < 32 →
      exec .offeredWriteJoin s =
        .next { s.wait 0 with ownQueue := s.ownQueue ++ [{ o with joined := s.now }], offered := os }) ∧
    ∀ s : State, s.Calm → (s.offered = [] ∨ 32 ≤ s.ownQueue.length) → exec .offeredWriteJoin s = .next (s.wait 0))) ∧
  ∀ (dt tag : Nat) (s : State) (w : OwnIssued), s.Calm → (s.inFlightOwn.find? fun k => k.tag == tag) = some w →
    w.write.kind.isStartUp = false →
    let u : State := { s.wait dt with inFlightOwn := s.inFlightOwn.filter fun k => k.tag != tag }
    exec (.ownWriteResponse dt tag true) s = .next u ∧
    ∃ t, exec (.ownWriteResponse dt tag false) s = .next t ∧ u.Reports t ∧ t.slots = s.slots ∧
      s.Tells t .storeError w.write.kind.producer s.pc w.write.addr w.write.kind.detail

/-- R6, R9, R149: the response to a CONTROL or PLAIN request, and to a slug read, is returned to its initiator. The beats
of a CONTROL WRITE answered OKAY, and of no other, are handed to the command unit, in ascending address order.
R1: an answer that becomes known for the oldest unanswered request of its initiator is returned at once.
R8: a capture write receives one response, when every part of it has been formed and answered: OKAY if every part
was answered OKAY, and FAULT otherwise. -/
def Obligations.ForwardedAndSlugAnswered : Prop :=
  ((∀ (dt tag : Nat) (resp : StoreResponse) (s : State) (x : Transaction), s.Calm →
      let u : State := { s.wait dt with inFlight := s.inFlight.filter fun k => k.tag != tag }
      (∀ q, s.issued tag Cargo.isForwarded = some x → x.cargo = .plain q →
        exec (.forwardedResponse dt tag resp) s = .next (u.answer q (answerGiven resp))) ∧
      (∀ q bs data, s.issued tag Cargo.isForwarded = some x → x.cargo = .control q → x.access = .write bs →
        resp = .okay data →
        exec (.forwardedResponse dt tag resp) s =
          .next (({ u with inbox := s.inbox ++ controlBeats (x.addr - s.controlBase) bs } : State).answer q (.okay data))) ∧
      (∀ q, s.issued tag Cargo.isForwarded = some x → x.cargo = .control q → (x.access.isWrite = false ∨ resp = .fault) →
        exec (.forwardedResponse dt tag resp) s = .next (u.answer q (answerGiven resp))) ∧
      (∀ q, s.issued tag Cargo.isSlug = some x → x.cargo = .slug q →
        exec (.slugReadResponse dt tag resp) s = .next (u.answer q (answerGiven resp)))) ∧
   ∀ (s : State) (q : Nat) (a : Answer), ∀ k ∈ s.outstanding, k.request = q →
     (∀ j ∈ s.outstanding, j.request = q → j = k) → (s.outstanding.find? fun j => j.initiator == k.initiator) = some k →
       { initiator := k.initiator, request := q, answer := a } ∈ (s.answer q a).returned) ∧
  ∀ (dt tag q : Nat) (resp : StoreResponse) (s : State) (x : Transaction) (k : Taken), s.Calm →
    s.issued tag Cargo.isForwarded = some x → x.cargo = .capture q →
    (s.outstanding.find? fun j => j.request == q) = some k →
    let v : State := { s.wait dt with
      inFlight := s.inFlight.filter fun j => j.tag != tag,
      outstanding := s.outstanding.map fun j =>
        if j.request = q then { j with parts := j.parts - 1, faulted := j.faulted || decide (resp = .fault) } else j }
    ((2 ≤ k.parts ∨ k.forming = true) → exec (.forwardedResponse dt tag resp) s = .next v) ∧
    (k.parts = 1 → k.forming = false → k.faulted = false → resp ≠ .fault →
      exec (.forwardedResponse dt tag resp) s = .next (v.answer q (.okay []))) ∧
    (k.parts = 1 → k.forming = false → (k.faulted = true ∨ resp = .fault) →
      exec (.forwardedResponse dt tag resp) s = .next (v.answer q .fault))

/-- R148, R92: the response to a redirected read is returned, its entry leaves the redirect table, and its slot loses a
pin; a COMPLETE slot stays COMPLETE, and a RECLAIM slot that loses its last pin with no header waiting becomes FREE. (What
the last pin releases beside that, and the end of a drain, stand in LastPinReleases.) -/
def Obligations.RedirectedReadAnswered : Prop :=
  ∀ (dt tag : Nat) (resp : StoreResponse) (s : State) (x : Transaction) (e : Redirect), s.Calm → s.drain = none →
    s.issued tag Cargo.isRedirected = some x → (s.redirects.find? fun k => k.tag == tag) = some e →
    let y := s.sources[e.source].slot e.slot
    let u : State := { ({ s.wait dt with inFlight := s.inFlight.filter fun k => k.tag != tag } : State).answer
      x.cargo.request (answerGiven resp) with redirects := s.redirects.filter fun k => k.tag != tag }
    ((2 ≤ y.pins ∨ (y.state = .complete ∧ s.sources[e.source].state ≠ .closing)) →
      exec (.redirectedReadResponse dt tag resp) s = .next (u.putSlot e.source e.slot { y with pins := y.pins - 1 })) ∧
    (y.pins = 1 → y.state = .reclaim → y.waiting = none → s.sources[e.source].state ≠ .closing →
      exec (.redirectedReadResponse dt tag resp) s = .next (u.putSlot e.source e.slot Slot.free))

/-- R88, R81, R173: a response to a redirected read that takes the last pin of a RECLAIM slot, or the last redirect entry of
a drain. A header that waits on the slot is released with the rest of its request; a CLOSING source with no other slot
in RECLAIM and no other waiting header becomes EMPTY; and the drain ends. A CLOSING source that becomes EMPTY at the response
that ends the drain does so first, and is not counted among the sources that the RESTART made EMPTY (log entry 43). -/
def Obligations.LastPinReleases : Prop :=
  ∀ (dt tag : Nat) (resp : StoreResponse) (s : State) (x : Transaction) (e : Redirect), s.Calm →
    s.issued tag Cargo.isRedirected = some x → (s.redirects.find? fun k => k.tag == tag) = some e →
    let source := s.sources[e.source]
    let y := source.slot e.slot
    let u : State := { ({ s.wait dt with inFlight := s.inFlight.filter fun k => k.tag != tag } : State).answer
      x.cargo.request (answerGiven resp) with redirects := s.redirects.filter fun k => k.tag != tag }
    let last := y.pins = 1 ∧ y.state = .reclaim
    let drains := source.state = .closing ∧ last ∧
      ∀ j, j ≠ e.slot → (source.slot j).state ≠ .reclaim ∧ (source.slot j).waiting = none
    (∀ w, s.drain = none → last → y.waiting = some w →
      ∃ t, exec (.redirectedReadResponse dt tag resp) s = .next t ∧
        (u.putSlot e.source e.slot { y with pins := 0 }).Releases t e.source e.slot w) ∧
    (s.drain = none → y.waiting = none → drains →
      ∃ t, exec (.redirectedReadResponse dt tag resp) s = .next t ∧
        (u.putSlot e.source e.slot Slot.free).BecomesEmpty t e.source) ∧
    (∀ k rec c, s.drain = some k → s.slots[k] = .pending rec c → commandCode rec = 20 → u.redirects = [] → s.held = [] →
      (∀ g : Fin 8, s.groups[g].stopCommand = none) →
      (source.state ≠ .closing → ∃ t, exec (.redirectedReadResponse dt tag resp) s = .next t ∧ u.EndsDrain t k rec c s.openSources) ∧
      (drains → ∃ t, exec (.redirectedReadResponse dt tag resp) s = .next t ∧ u.EndsDrain t k rec c (s.openSources - 1)))

/-! ### Releases -/

/-- R152 to R154: a held read on a slot that has completed is redirected to it, or answered with slug where the redirect
table is full or the slot completed CLOSED or FAULTED; at its deadline it is answered with slug. Its initiator is no
longer parked. A HELD_TIMEOUT report is made at the deadline and for want of an entry. (In a run the release is a part of the
event that completes the slot, see SlotCompletes and log entry 3.) -/
def Obligations.HeldReadsReleased : Prop :=
  ∀ (s : State) (e : Held) (x : Window), s.Calm → s.windows[e.window] = some x →
    let u (now : State) : State := { now with
      held := s.held.filter fun k => k != e, parks := s.parks.set e.initiator none, nextId := s.nextId + 1 }
    let slug (now : State) : State := { u now with
      stream := s.stream ++ [⟨s.nextId, .slug e.request, x.slugBase + e.offset, .read e.beats⟩] }
    let y := s.sources[e.source].slot e.slot
    ((s.held.filter fun k => k.source == e.source && k.slot == e.slot) = [e] → y.state = .complete →
      ((y.kind = some .full ∨ y.kind = some .short) → s.redirects.length < 32 →
        exec (.heldReadRelease e.source e.slot) s = .next (({ u (s.wait 0) with
          stream := s.stream ++ [⟨s.nextId, .redirected e.request, s.sources[e.source].slotAddress e.slot + e.offset, .read e.beats⟩],
          redirects := s.redirects ++ [⟨s.nextId, e.window, e.initiator, e.source, e.slot⟩] } : State).putSlot e.source e.slot
            { y with pins := y.pins + 1 })) ∧
      ((y.kind = some .full ∨ y.kind = some .short) → 32 ≤ s.redirects.length →
        ∃ t, exec (.heldReadRelease e.source e.slot) s = .next t ∧ (slug (s.wait 0)).Reports t ∧ t.eventFlags.window = true ∧
          s.Tells t .heldTimeout e.window.val s.pc e.target.count (byteWord [e.target.frac, 2, e.initiator.val])) ∧
      ((y.kind = some .closed ∨ y.kind = some .faulted) →
        exec (.heldReadRelease e.source e.slot) s = .next (slug (s.wait 0)))) ∧
    ∀ d, (s.held.find? fun k => k.initiator == e.initiator) = some e → s.Due (s.heldDue e.initiator) d →
      ∃ t, exec (.heldDeadline e.initiator) s = .next t ∧ (slug (s.advanceTo d)).Reports t ∧ t.eventFlags.window = true ∧
        s.Tells t .heldTimeout e.window.val s.pc e.target.count (byteWord [e.target.frac, 1, e.initiator.val])

/-- R78, R88, R11: a waiting header whose slot holds no pin is released, by the state its source then has, with the rest of its
request. (In a run the response that takes the last pin does it in the same event, see LastPinReleases and log entry 3.) -/
def Obligations.WaitingHeaderReleased : Prop :=
  ∀ (s : State) (n : Fin 32) (i : Nat) (w : Waiting), s.Calm → (s.sources[n].slot i).state = .reclaim →
    (s.sources[n].slot i).pins = 0 → (s.sources[n].slot i).waiting = some w →
    ∃ t, exec (.waitingHeaderRelease n i) s = .next t ∧ (s.wait 0).Releases t n i w

/-- R81: a drained CLOSING source becomes EMPTY. (In a run the event that drains it does so, see LastPinReleases and log
entry 3.) -/
def Obligations.DrainedSourceBecomesEmpty : Prop :=
  ∀ (s : State) (n : Fin 32), s.Calm →
    (s.sources[n].drained = true → ∃ t, exec (.sourceBecomesEmpty n) s = .next t ∧ (s.wait 0).BecomesEmpty t n) ∧
    (s.sources[n].drained = false → exec (.sourceBecomesEmpty n) s = .next (s.wait 0))

/-! ### The picture clock -/

/-- R24 to R27, R50, R51: an ordinary boundary. The count advances by one modulo R, the phase returns to 0, FPO rises,
every OPEN window is retargeted (WindowTargets gives the targets), every clap match counts a frame, the time beat is
rewritten, and every marker line with trigger FRAME starts its train; in LOCKED the scheduled boundary is used up and the
strict count falls, in HOLDOVER the holdover count rises and may end it. -/
def Obligations.OrdinaryBoundary : Prop :=
  ∀ (s : State) (d : Nat), s.Calm → s.Due s.boundaryDue d → s.pendingRate = none → s.preset = none → s.jamDue = none →
    ∃ t, exec .frameBoundary s = .next t ∧ t.pc = (s.pc + 1) % s.rate.range ∧ t.phase = 0 ∧ t.fpo = true ∧ t.rate = s.rate ∧
      t.now = s.reach d ∧ t.Shows timePart ∧
      (∀ w : Fin 8, t.windows[w] = s.windows[w].map fun x => { x with target := x.retarget s.rate t.pc }) ∧
      (∀ g : Fin 8, t.claps[g] = s.claps[g].bind fun c =>
        if c.remaining ≤ 1 then none else some { c with remaining := c.remaining - 1 }) ∧
      (∀ m : Fin 4, (s.markers[m].trigger = .frame → t.markers[m] = s.markers[m].start t.now) ∧
        (s.markers[m].trigger ≠ .frame → (∀ g, s.markers[m].trigger ≠ .takeRoll g ∧ s.markers[m].trigger ≠ .takeEnd g) →
          t.markers[m] = s.markers[m])) ∧
      (s.lock = .locked → t.lock = .locked ∧ t.scheduled = s.scheduled.drop 1 ∧ t.strict = s.strict - 1) ∧
      (s.lock = .holdover → t.holdCount = min (s.holdCount + 1) 65535 ∧
        t.lock = if s.holdoverLimit ≠ 0 ∧ s.holdoverLimit ≤ t.holdCount then .free else .holdover) ∧
      ((s.lock = .free ∨ s.lock = .acquire) → t.lock = s.lock ∧ t.strict = s.strict ∧ t.holdCount = s.holdCount) ∧
      t.sources = s.sources ∧ t.held = s.held ∧ t.redirects = s.redirects ∧ t.stream = s.stream ∧ t.inFlight = s.inFlight ∧
      t.outstanding = s.outstanding ∧ t.parks = s.parks ∧ t.settings = s.settings ∧ t.jamMode = s.jamMode ∧
      t.jamRun = s.jamRun ∧ t.refEnable = s.refEnable ∧ t.ref = s.ref ∧ t.acqRun = s.acqRun ∧ t.inbox = s.inbox ∧
      t.consumer = s.consumer

/-- R38, R39: a boundary that applies a preset. The count is the preset's day and label at the rate in effect from that
boundary, the anchors of every source move by the delta, the clap matches close, and the preset's command completes with
DONE, the new count as its PC, the old count and the delta as its result words. A rate change pending at the same boundary is
applied first: the delta is reckoned at the new rate, and the groups and the monitor act as at a rate change (log entries 14,
32). A label checked at a pending rate since given up is read at the rate in effect (log entry 35). -/
def Obligations.PresetBoundary : Prop :=
  ∀ (s : State) (d : Nat) (p : Preset), s.Calm → s.Due s.boundaryDue d → s.preset = some p →
    (s.pendingRate ≠ none → ∀ g : Fin 8, s.groups[g].state = .idle) →
    let rate := s.pendingRate.getD s.rate
    let pc := (p.day * rate.framesPerDay + p.label.frameOfDay rate) % rate.range
    let delta := signedDiff rate pc ((s.pc + 1) % rate.range)
    ∃ t, exec .frameBoundary s = .next t ∧ t.pc = pc ∧ t.preset = none ∧ t.phase = 0 ∧ t.fpo = true ∧ t.rate = rate ∧
      t.pendingRate = none ∧ t.Shows timePart ∧ (∀ n : Fin 32, t.sources[n] = s.sources[n].shifted rate delta) ∧
      (∀ g : Fin 8, t.claps[g] = none) ∧ (∀ w : Fin 8, t.windows[w] = s.windows[w].map fun x => { x with target := x.retarget rate pc }) ∧
      t.held = s.held ∧ t.redirects = s.redirects ∧ t.jamMode = s.jamMode ∧
      (s.pendingRate ≠ none → (∀ g : Fin 8, t.groups[g] = { s.groups[g] with ended := none }) ∧
        t.ref = s.pendingRef.getD s.ref ∧ t.pendingRef = none ∧ t.lock = (if s.lock = .free then .free else .acquire)) ∧
      ∀ rec c, s.slots[p.slot] = .pending rec c → t.slots[p.slot] = .done ∧
        t.Wrote (.statusRecord p.slot.val) (s.controlBase + statusRecordOffset p.slot.val)
          (statusRecordBeat 2 1 (commandCode rec) (flagNat c) (commandTag rec) pc s.pc (int64 delta))

/-- R59 to R61, R39: a boundary at which a jam falls due. With no group ROLLING or STOPPING it gives the count, ends the
run and a ONCE mode, moves the anchors by its delta, and is reported; otherwise it is deferred, with one report.
When a jam falls due and with what count: ONCE at the label that follows the run's last, in the next day after midnight;
CONTINUOUS at the run's offset from the next count, if that is not 0. (The PC of the report is the new count, log entry 34; a
run whose last label is not valid at the rate has none that follows, log entry 16.) -/
def Obligations.JamBoundary : Prop :=
  (∀ (s : State) (d c : Nat), s.Calm → s.Due s.boundaryDue d → s.pendingRate = none → s.preset = none → s.jamDue = some c →
     let delta := signedDiff s.rate c ((s.pc + 1) % s.rate.range)
     (s.anyRolling = false →
       ∃ t, exec .frameBoundary s = .next t ∧ t.pc = c ∧ t.phase = 0 ∧ t.jamRun = none ∧ t.deferral = false ∧
         t.jamMode = (if s.jamMode = .once then .off else s.jamMode) ∧
         (∀ n : Fin 32, t.sources[n] = s.sources[n].shifted s.rate delta) ∧ (∀ g : Fin 8, t.claps[g] = none) ∧
         s.Tells t .jam 0 c (int64 delta) (if s.jamMode = .once then 1 else 3) ∧ t.Shows timePart) ∧
     (s.anyRolling = true →
       ∃ t, exec .frameBoundary s = .next t ∧ t.pc = (s.pc + 1) % s.rate.range ∧ t.deferral = true ∧ t.jamRun = s.jamRun ∧
         t.jamMode = s.jamMode ∧ t.sources = s.sources ∧ (s.deferral = false → s.Tells t .jam 0 t.pc 0 2))) ∧
  (∀ (s : State) (run : JamRun), s.jamRun = some run →
     (run.length < s.jamLength → s.jamDue = none) ∧ (s.jamMode = .off → s.jamDue = none) ∧
     (s.jamLength ≤ run.length → s.jamMode = .once → run.last.valid s.rate = true →
       let f := (run.last.frameOfDay s.rate + 1) % s.rate.framesPerDay
       s.jamDue = some (((if f = 0 then (s.pc / s.rate.framesPerDay + 1) % 65536 else s.pc / s.rate.framesPerDay) *
         s.rate.framesPerDay + f) % s.rate.range)) ∧
     (s.jamLength ≤ run.length → s.jamMode = .continuous → run.offset ≠ 0 →
       s.jamDue = some (countAdd s.rate s.pc (1 + run.offset))) ∧
     (s.jamMode = .continuous → run.offset = 0 → s.jamDue = none))

/-- R30, R42, R54, R123: a boundary that applies a pending rate. The count the frame would have had is converted by its
label, also where a jam is due (log entry 15), the pending reference fields take effect, acquisition is started afresh unless
the monitor is FREE, before the boundary is counted (log entry 14), and every group's ended take is dropped. -/
def Obligations.RateBoundary : Prop :=
  ∀ (s : State) (d : Nat) (new : Rate), s.Calm → s.Due s.boundaryDue d → s.pendingRate = some new → s.preset = none →
    (∀ g : Fin 8, s.groups[g].state = .idle) →
    let old := (s.pc + 1) % s.rate.range
    let l := labelOf s.rate (old % s.rate.framesPerDay)
    let l1 : Label := { l with frames := l.frames * new.base / s.rate.base }
    let l2 : Label := if l1.dropped new then { l1 with frames := new.drop } else l1
    ∃ t, exec .frameBoundary s = .next t ∧ t.rate = new ∧ t.pendingRate = none ∧ t.phase = 0 ∧ t.fpo = true ∧
      t.pc = (old / s.rate.framesPerDay * new.framesPerDay + l2.frameOfDay new) % new.range ∧
      t.ref = s.pendingRef.getD s.ref ∧ t.pendingRef = none ∧
      t.lock = (if s.lock = .free then .free else .acquire) ∧
      (s.lock ≠ .free → t.acqRun = none ∧ t.attempts = 0 ∧ t.holdMark = false) ∧
      (∀ g : Fin 8, t.groups[g] = { s.groups[g] with ended := none }) ∧ t.sources = s.sources ∧ t.Shows timePart

/-- R126, R127, R129, R130: what a group does at an ordinary boundary, by its state and the new count. A roll: the take number,
the TAKE_START entry, the TAKE_STATE report, and the TAKE_ROLL triggers. A stop boundary: the awaited members and the report;
with none to await the take ends at once. A tail that reaches its limit ends the take. The end of a take completes the stop
command and hands on the TAKE_END triggers (shown for a stop command that no other group holds). -/
def Obligations.GroupsAtBoundary : Prop :=
  ∀ (s : State) (d : Nat) (g : Fin 8), s.Calm → s.Due s.boundaryDue d → s.pendingRate = none → s.preset = none →
    s.jamDue = none → (∀ h : Fin 8, h ≠ g → s.groups[h].stopCommand = none ∨ s.groups[h].stopCommand ≠ s.groups[g].stopCommand) →
    let x := s.groups[g]
    ∃ t, exec .frameBoundary s = .next t ∧
      let due := if x.rollMode = .atTime then 0 ≤ signedDiff s.rate t.pc x.requestedRoll else x.rollDue = true
      let late := x.rollMode = .atTime ∧ t.pc ≠ x.requestedRoll
      let rolls := x.state = .armed ∧ due
      let stops := x.state = .rolling ∧ ∃ c, x.stopCount = some c ∧ 0 ≤ signedDiff s.rate t.pc c
      let expires := x.state = .stopping ∧ s.tailLimit ≤ x.tail + 1
      (x.state = .idle → t.groups[g] = x) ∧
      (rolls →
        t.groups[g] = { x with
          state := .rolling, take := x.take + 1, rollCount := t.pc, stopCount := none, stopCommand := none, passed := [],
          awaited := [], rollDue := false } ∧ t.Shows (groupPart g) ∧ t.eventFlags.takeChange = true ∧
        s.Enters t (groupEntry .takeStart 0 g (x.take + 1) (if late then 256 else 0) t.pc) ∧
        s.TellsAlso t .takeState g.val t.pc
          (1 + 256 * 2 + 65536 * (x.take + 1) + 4294967296 * (if late then 3 else 2)) (if late then x.requestedRoll else t.pc) ∧
        ∀ m : Fin 4, s.markers[m].trigger = .takeRoll g → t.markers[m] = s.markers[m].start t.now) ∧
      (x.state = .armed → ¬due → t.groups[g] = x) ∧
      (x.state = .rolling → (∀ c, x.stopCount = some c → signedDiff s.rate t.pc c < 0) → t.groups[g] = x) ∧
      (∀ c, x.stopCount = some c → stops →
        s.TellsAlso t .takeState g.val t.pc (2 + 256 * 3 + 65536 * x.take + 4294967296 * 4) c ∧
        (s.toAwait g ≠ [] → t.groups[g] = { x with state := .stopping, tail := 0, awaited := s.toAwait g } ∧ t.Shows (groupPart g)) ∧
        (s.toAwait g = [] → s.EndsTake t g .stopping t.pc t.pc .ended)) ∧
      (x.state = .stopping → ¬expires → t.groups[g] = { x with tail := x.tail + 1 }) ∧
      (expires → s.EndsTake t g .stopping t.pc t.pc .tailExpired) ∧
      ∀ m : Fin 4, (s.markers[m].trigger = .takeRoll g → ¬rolls → t.markers[m] = s.markers[m]) ∧
        (s.markers[m].trigger = .takeEnd g → ¬expires → ¬(stops ∧ s.toAwait g = []) → t.markers[m] = s.markers[m])

/-- R126, R128 to R130, R132: what the members of a group's take do to it. An accepted ROLL record of a LIVE slate sets the
roll due mark of a group that is ARMED ON_SLATE, and of no other. A completion FULL of a stamped camera or sound slot at or
after the stop count adds the member to the passed members, and in STOPPING takes it from the awaited ones; the last one ends
the take (log entry 39: a group that is IDLE records nothing). A member that leaves LIVE by SOURCE_REQUALIFY or SOURCE_CLOSE
gives a MEMBER_LOST entry, and is awaited no more; the last awaited one ends the take. If the completion of its own FILLING
slot has ended the take before that, there is no MEMBER_LOST entry (log entry 40). -/
def Obligations.TakeFollowsMembers : Prop :=
  (∀ (dt : Nat) (r : Request) (s : State) (n : Fin 32) (b : WriteBeat), s.Ready r → s.IdLaw →
     s.classify r = .capture n → r.access = .write [b] → (s.sources[n].place r.addr.toNat).2 = 0 → b.enables = allEnables →
     s.sources[n].fillingSlot = none → s.sources[n].state = .live → s.sources[n].kind = .slate →
     s.sources[n].check b.data = .accepted → (s.sources[n].slot (s.sources[n].place r.addr.toNat).1).pins = 0 →
     ∃ t, exec (.requestTaken dt r) s = .next t ∧
       ∀ g : Fin 8, t.groups[g] =
         if headerRoll b.data = true ∧ s.sources[n].group = some g ∧ s.groups[g].state = .armed ∧ s.groups[g].rollMode = .onSlate
         then { s.groups[g] with rollDue := true } else s.groups[g]) ∧
  (∀ (dt : Nat) (r : Request) (s : State) (n : Fin 32) (b : WriteBeat) (st : Stamp), s.Ready r → s.IdLaw →
     s.classify r = .capture n → r.access = .write [b] → s.sources[n].state = .live → s.sources[n].kind ≠ .slate →
     ((s.sources[n].place r.addr.toNat).2 ≠ 0 ∨ b.enables ≠ allEnables) →
     let y := s.sources[n].slot (s.sources[n].place r.addr.toNat).1
     y.state = .filling → s.sources[n].bufferLength ≤ y.beats + 1 → y.stamp = some st →
     ∃ t, exec (.requestTaken dt r) s = .next t ∧
       (∀ h : Fin 8, s.sources[n].group ≠ some h → t.groups[h] = s.groups[h]) ∧
       ∀ g, s.sources[n].group = some g →
         let x := s.groups[g]
         let passes := (x.state = .rolling ∨ x.state = .stopping) ∧ ∃ c, x.stopCount = some c ∧ 0 ≤ signedDiff s.rate st.count c
         (¬passes → t.groups[g] = x) ∧
         (passes → ¬(x.state = .stopping ∧ n ∈ x.awaited ∧ ∀ m ∈ x.awaited, m = n) →
           t.groups[g] = { x with
             passed := t.groups[g].passed,
             awaited := if x.state = .stopping then x.awaited.filter fun m => m != n else x.awaited } ∧
           ∀ m, m ∈ t.groups[g].passed ↔ m = n ∨ m ∈ x.passed) ∧
         (passes → x.state = .stopping → n ∈ x.awaited → (∀ m ∈ x.awaited, m = n) →
           s.EndsTake t g .stopping s.pc s.pc .ended)) ∧
  ∀ (dt : Nat) (slot : Fin 16) (rec : Beat) (s : State) (rest : List ControlBeat) (n : Fin 32) (g : Fin 8) (c : Instr), s.Calm →
    s.Offers slot rec rest → finField 32 rec 8 = some n →
    (c = .sourceRequalify dt slot rec ∧ commandCode rec = 6 ∨ c = .sourceClose dt slot rec ∧ commandCode rec = 7) →
    s.sources[n].state = .live → s.sources[n].group = some g →
    let x := s.groups[g]
    let lost := groupEntry .memberLost n.val g x.take 0 s.pc
    (s.sources[n].fillingSlot = none → ∃ t, exec c s = .next t ∧
      ((x.state = .idle ∨ x.state = .armed) → t.groups[g] = x ∧ t.indexSeq = s.indexSeq) ∧
      ((x.state = .rolling ∨ x.state = .stopping) → s.EntersAt t s.indexSeq lost) ∧
      (x.state = .rolling → t.groups[g] = x) ∧
      (x.state = .stopping → ¬(n ∈ x.awaited ∧ ∀ m ∈ x.awaited, m = n) →
        t.groups[g] = { x with awaited := x.awaited.filter fun m => m != n }) ∧
      (x.state = .stopping → n ∈ x.awaited → (∀ m ∈ x.awaited, m = n) → s.EndsTake t g .stopping s.pc s.pc .ended)) ∧
    ∀ i st f stop, s.sources[n].fillingSlot = some i → (s.sources[n].slot i).stamp = some st →
      (s.sources[n].slot i).fill = some f → s.sources[n].kind ≠ .slate → x.state = .stopping → x.stopCount = some stop →
      0 ≤ signedDiff s.rate st.count stop → n ∈ x.awaited → (∀ m ∈ x.awaited, m = n) →
      ∃ t, exec c s = .next t ∧ t.indexSeq = s.indexSeq + 2 ∧ s.EndsTake t g .stopping s.pc s.pc .ended

/-- R141, R144: the targets of a window. What a command aims at: in LIVE_DELAY the count standing less the delay, with
sub-index 0; in a cue mode the cue stamp. After a boundary of new count `pc`: in LIVE_DELAY that count less the delay; in
CUE_STILL the target it had; in CUE_ROLL the next sub-index, or with the last sub-index of a count the next count. -/
def Obligations.WindowTargets : Prop :=
  (∀ (r : Rate) (rec : Beat) (a : WindowAim) (pc : Nat), windowAim r rec = some a →
    (a.mode = .liveDelay → field rec 10 1 = 1 ∧
      aimTarget r pc a = { count := (((pc : Int) - field rec 11 1) % (r.range : Int)).toNat, frac := 0 }) ∧
    (a.mode ≠ .liveDelay → (field rec 10 1 = 2 ∨ field rec 10 1 = 3) ∧ field rec 32 8 < r.range ∧
      aimTarget r pc a = { count := field rec 32 8, frac := field rec 14 1 })) ∧
  ∀ (r : Rate) (w : Window) (pc : Nat),
    (w.mode = .liveDelay → w.retarget r pc = { count := (((pc : Int) - w.delay) % (r.range : Int)).toNat, frac := 0 }) ∧
    (w.mode = .cueStill → w.retarget r pc = w.target) ∧
    (w.mode = .cueRoll → w.target.frac + 1 < w.speedRatio →
      w.retarget r pc = { count := w.target.count, frac := w.target.frac + 1 }) ∧
    (w.mode = .cueRoll → w.speedRatio ≤ w.target.frac + 1 →
      w.retarget r pc = { count := (w.target.count + 1) % r.range, frac := 0 })

/-- R27, R135: FPO falls at its instant; the timed part of a marker line's train ends at its own: a high part is followed
by a gap, or by the train IDLE after the last pulse, and a gap by the next pulse. -/
def Obligations.FpoAndMarkerParts : Prop :=
  (∀ (s : State) (d : Nat), s.Calm → s.Due s.fpoDue d → exec .fpoFall s = .next { s.advanceTo d with fpo := false }) ∧
  ∀ (s : State) (m : Fin 4) (x : Train), s.Calm → s.markers[m].train = some x → x.partEnd ≤ s.reach x.partEnd →
    let put (y : Option Train) : State := (s.advanceTo x.partEnd).putMarker m { s.markers[m] with train := y }
    (x.high = true → x.count ≤ x.pulse → exec (.markerPartEnd m) s = .next (put none)) ∧
    (x.high = true → x.pulse < x.count → exec (.markerPartEnd m) s =
      .next (put (some { x with high := false, partEnd := x.partEnd + x.width * 27000 }))) ∧
    (x.high = false → exec (.markerPartEnd m) s =
      .next (put (some { x with high := true, pulse := x.pulse + 1, partEnd := x.partEnd + x.width * 27000 })))

/-- R44, R51: a pulse in FREE has no effect with the reference disabled, and otherwise starts an attempt in ACQUIRE; one
in HOLDOVER does so with the holdover mark set.
R45 to R47: a pulse in ACQUIRE. The first of a run begins the count; a good interval adds to it, and at the lock
count the monitor enters LOCKED, scheduling the first aligned boundary only if it lies at least half a period after the
last; another interval fails the attempt, and at the attempt limit the reference is rejected. -/
def Obligations.PulseAcquires : Prop :=
  (∀ (dt : Nat) (s : State), s.Calm →
     let u (mark : Bool) : State := { s.wait dt with
       lock := .acquire, holdMark := mark, acqRun := some { previous := (s.wait dt).now, good := 0 } }
     (s.lock = .free → s.refEnable = false → exec (.refPulse dt) s = .next (s.wait dt)) ∧
     (s.lock = .free → s.refEnable = true → ∃ t, exec (.refPulse dt) s = .next t ∧ (u false).Reports t ∧
       s.Tells t .lockState 0 s.pc (byteWord [0, 1]) 1 ∧ t.eventFlags.lockChange = true ∧ t.Shows timePart) ∧
     (s.lock = .holdover → ∃ t, exec (.refPulse dt) s = .next t ∧ (u true).Reports t ∧
       s.Tells t .lockState 0 s.pc (byteWord [3, 1]) 5 ∧ t.eventFlags.lockChange = true ∧ t.Shows timePart)) ∧
  (∀ (dt : Nat) (s : State), s.Calm → s.lock = .acquire →
     let now := (s.wait dt).now
     let o := (s.ref.phaseOffset % (s.rate.period : Int)).toNat
     let i := s.rate.period / s.ref.divider
     (s.acqRun = none → exec (.refPulse dt) s = .next { s.wait dt with acqRun := some { previous := now, good := 0 } }) ∧
     ∀ run, s.acqRun = some run →
       let good := i ≤ now - run.previous + s.ref.tolerance ∧ now - run.previous ≤ i + s.ref.tolerance
       (good → run.good + 1 < s.ref.lockCount →
         exec (.refPulse dt) s = .next { s.wait dt with acqRun := some { previous := now, good := run.good + 1 } }) ∧
       (good → s.ref.lockCount ≤ run.good + 1 →
         ∃ t, exec (.refPulse dt) s = .next t ∧
           ({ s.wait dt with
             lock := .locked, lastUsed := some now, usedNext := false, attempts := 0, acqRun := none, excursion := false,
             strict := if s.holdMark then 250 else 0, holdMark := false,
             scheduled := if s.rate.period ≤ 2 * (o + (s.wait dt).phase) then [now + o] else [] } : State).Reports t ∧
           s.Tells t .lockState 0 s.pc (byteWord [1, 2]) 2 ∧ t.Shows timePart) ∧
       (¬good → s.attempts + 1 < s.ref.attemptLimit →
         exec (.refPulse dt) s = .next { s.wait dt with attempts := s.attempts + 1, acqRun := some { previous := now, good := 0 } }) ∧
       (¬good → s.ref.attemptLimit ≤ s.attempts + 1 →
         ∃ t, exec (.refPulse dt) s = .next t ∧
           ({ s.wait dt with attempts := s.attempts + 1, acqRun := none, refEnable := false, lock := .free } : State).Reports t ∧
           s.Tells t .referenceRejected 0 s.pc (s.attempts + 1) (now - run.previous) ∧ t.eventFlags.lockChange = true))

/-- R43, R48, R49: a pulse in LOCKED, by its time since the last used pulse. A clean used pulse sets the next boundary
and clears the excursion latch; an unused pulse of divider 2 only turns the parity; an excursion of a used pulse, or a
stray pulse, is reported once under REPORT, and under RELOCK starts acquisition with the pulse as its first.
R45, R47: with no pulse by its deadline an attempt fails, and with none by the coarse deadline LOCKED gives way to
HOLDOVER, its scheduled boundaries discarded (R52). -/
def Obligations.PulseInLockedAndDeadlines : Prop :=
  (∀ (dt last : Nat) (s : State), s.Calm → s.lock = .locked → s.lastUsed = some last →
     let now := (s.wait dt).now
     let t := now - last
     let p := s.rate.period
     let i := p / s.ref.divider
     let o := (s.ref.phaseOffset % (p : Int)).toNat
     let e : Int := (t : Int) - p
     let usedBy (latch : Bool) : State := { s.wait dt with
       lastUsed := some now, scheduled := s.scheduled ++ [now + o], usedNext := false, excursion := latch }
     let used := p - p / 8 ≤ t ∧ t ≤ p + p / 8
     let unused := s.ref.divider = 2 ∧ s.usedNext = false ∧ i - i / 8 ≤ t ∧ t ≤ i + i / 8
     let clean := e.natAbs ≤ s.fineThreshold
     let relock : State := { s.wait dt with
       lock := .acquire, scheduled := [], lastUsed := none, acqRun := some { previous := now, good := 0 } }
     (used → clean → exec (.refPulse dt) s = .next (usedBy false)) ∧
     (¬used → unused → exec (.refPulse dt) s = .next { s.wait dt with usedNext := true }) ∧
     (used → ¬clean → s.relocks = false → s.excursion = false → ∃ v, exec (.refPulse dt) s = .next v ∧ (usedBy true).Reports v ∧
       s.Tells v .phaseExcursion 0 s.pc (int64 e) s.fineThreshold) ∧
     (used → ¬clean → s.relocks = false → s.excursion = true → exec (.refPulse dt) s = .next (usedBy true)) ∧
     (¬used → ¬unused → s.relocks = false → s.excursion = true → exec (.refPulse dt) s = .next (s.wait dt)) ∧
     (¬used → ¬unused → s.relocks = false → s.excursion = false → ∃ v, exec (.refPulse dt) s = .next v ∧
       ({ s.wait dt with excursion := true } : State).Reports v ∧
       s.Tells v .phaseExcursion 0 s.pc 0 (s.fineThreshold + 4294967296)) ∧
     ((used ∧ ¬clean ∨ ¬used ∧ ¬unused) → s.relocks = true → ∃ v, exec (.refPulse dt) s = .next v ∧ relock.Reports v ∧
       s.Tells v .lockState 0 s.pc (byteWord [2, 1]) 4 ∧ v.Shows timePart)) ∧
  (∀ (s : State) (d : Nat), s.Calm → s.Due s.acquireDue d →
    (s.attempts + 1 < s.ref.attemptLimit →
      exec .acquireDeadline s = .next { s.advanceTo d with attempts := s.attempts + 1, acqRun := none }) ∧
    (s.ref.attemptLimit ≤ s.attempts + 1 → ∃ t, exec .acquireDeadline s = .next t ∧
      ({ s.advanceTo d with attempts := s.attempts + 1, acqRun := none, refEnable := false, lock := .free } : State).Reports t ∧
      s.Tells t .referenceRejected 0 s.pc (s.attempts + 1) (2 ^ 64 - 1) ∧ t.Shows timePart)) ∧
  ∀ (s : State) (d : Nat), s.Calm → s.Due s.missingDue d →
    ∃ t, exec .missingPulse s = .next t ∧
      ({ s.advanceTo d with lock := .holdover, holdCount := 0, scheduled := [], lastUsed := none } : State).Reports t ∧
      s.Tells t .lockState 0 s.pc (byteWord [2, 3]) 3 ∧ t.Shows timePart

/-- R58: a timecode word has no effect while the jam mode is OFF; an invalid one empties the run; a valid one joins the
run if it is sequential and, in CONTINUOUS, keeps the run's offset, and otherwise begins a run of its own. No word joins a run
whose last label is not valid at the rate in effect (log entry 16, DEDUCED: after a rate change R58 does not say it). -/
def Obligations.TimecodeWordRuns : Prop :=
  ∀ (dt : Nat) (w : TimecodeWord) (s : State), s.Calm →
    let l := wordLabel w
    let valid := l.valid s.rate = true ∧ w.drop = s.rate.isDrop
    let offset := frameOffset s.rate (l.frameOfDay s.rate) (s.pc % s.rate.framesPerDay)
    let fresh : State := { s.wait dt with jamRun := some { length := 1, offset := offset, last := l } }
    (s.jamMode = .off → exec (.timecodeWord dt w) s = .next (s.wait dt)) ∧
    (s.jamMode ≠ .off → ¬valid → exec (.timecodeWord dt w) s = .next { s.wait dt with jamRun := none }) ∧
    (s.jamMode ≠ .off → valid → s.jamRun = none → exec (.timecodeWord dt w) s = .next fresh) ∧
    ∀ run, s.jamMode ≠ .off → valid → s.jamRun = some run →
      let joins := run.last.valid s.rate = true ∧
        l = labelOf s.rate ((run.last.frameOfDay s.rate + 1) % s.rate.framesPerDay) ∧
        (s.jamMode = .continuous → run.offset = offset)
      (joins → exec (.timecodeWord dt w) s =
        .next { s.wait dt with jamRun := some { run with length := min (run.length + 1) 15, last := l } }) ∧
      (¬joins → exec (.timecodeWord dt w) s = .next fresh)

/-! ### The control window -/

/-- R159, R161, R162: a settings write, where every write-back still unissued goes to the settings beat (a law that every
step keeps, BoundsKept; R15 merges a new write-back into it where it stands). A word with all 8 bytes enabled takes the merged value if that is in range, and
keeps its own otherwise; a word partly enabled keeps its value; and each word written at all has its write-back, with the
value then current and a mask of zero, among the own writes, to the settings beat. Nothing else changes but reporting.
R161 step 4: a settings write of one word whose merged value is out of range makes a SETTING_REFUSED report with the
value formed and the value kept. -/
def Obligations.SettingsWritten : Prop :=
  (∀ (dt : Nat) (data : Beat) (enables : Enables) (s : State) (rest : List ControlBeat), s.Calm → s.WriteBackPlaceLaw →
     s.inbox = { offset := settingsOffset, data := data, enables := enables } :: rest →
     let formed (n : Fin 7) := mergeSetting s.settings[n] (settingWritten data n).1 (settingWritten data n).2
     ∃ t, exec (.settingsWrite dt data enables) s = .next t ∧
       ({ s.atCommand dt rest with settings := t.settings } : State).Reports t ∧ t.slots = s.slots ∧
       ∀ n : Fin 7,
         t.settings[n] = (if wordEnabled enables n.val = 8 ∧ settingInRange n (formed n) = true then formed n else s.settings[n]) ∧
         (wordEnabled enables n.val ≠ 0 → ∃ w ∈ t.ownQueue ++ t.offered, w.kind = .writeBack n.val ∧
           w.addr = s.controlBase + 0x1000 ∧ w.beats = [{ data := pack [settingField n.val t.settings[n]], enables := wordEnables n.val }])) ∧
  (∀ (dt : Nat) (data : Beat) (s : State) (n : Fin 7) (rest : List ControlBeat), s.Calm →
     s.inbox = { offset := settingsOffset, data := data, enables := wordEnables n.val } :: rest →
     let formed := mergeSetting s.settings[n] (settingWritten data n).1 (settingWritten data n).2
     settingInRange n formed = false →
     ∃ t, exec (.settingsWrite dt data (wordEnables n.val)) s = .next t ∧ t.settings = s.settings ∧
       s.Tells t .settingRefused n.val s.pc formed.toNat s.settings[n].toNat)

/-- R159, R177: a consumer write moves the consumer copy if its count lies from the copy to the producer count, and is
ignored otherwise; a beat that is taken as nothing changes nothing. -/
def Obligations.ConsumerAndIgnoredWrites : Prop :=
  (∀ (dt : Nat) (data : Beat) (enables : Enables) (s : State) (rest : List ControlBeat), s.Calm →
    consumerEnabled enables = true → s.inbox = { offset := consumerOffset, data := data, enables := enables } :: rest →
    ∃ t, exec (.consumerWrite dt data enables) s = .next t ∧
      ({ s.atCommand dt rest with
        consumer := if s.consumer ≤ field data 0 8 ∧ field data 0 8 ≤ s.producer then field data 0 8 else s.consumer } : State).Reports t ∧
      t.producer = s.producer ∧ t.eventFlags = s.eventFlags ∧ t.slots = s.slots ∧
      (t.consumer ≠ s.consumer → t.Shows attentionPart)) ∧
  ∀ (dt offset : Nat) (data : Beat) (enables : Enables) (s : State) (rest : List ControlBeat), s.Calm →
    (ControlBeat.mk offset data enables).takenAs = .ignored → s.inbox = { offset := offset, data := data, enables := enables } :: rest →
    exec (.controlWriteIgnored dt offset data enables) s = .next (s.atCommand dt rest)

/-- R168, R29, R42, R54: an accepted TIMEBASE_SET. With the rate in effect its fields take effect at once, any pending
rate is given up, and a change of divider or phase offset starts acquisition afresh unless the monitor is FREE, with the
time beat rewritten also where the monitor stands in ACQUIRE already (log entry 45); with another rate, rate and fields
become pending.
R37, R62, R53, R169: accepted TIME_PRESET, JAM_MODE and REFERENCE commands. -/
def Obligations.TimeCommandsAccepted : Prop :=
  (∀ (dt : Nat) (slot : Fin 16) (rec : Beat) (s : State) (rest : List ControlBeat) (rate : Rate) (f : RefFields), s.Calm →
     s.Offers slot rec rest → commandCode rec = 1 → timebaseSetArgs rec = some (rate, f) → s.busy = false →
     let c := s.atCommand dt rest
     let afresh := (f.divider ≠ s.ref.divider ∨ f.phaseOffset ≠ s.ref.phaseOffset) ∧ s.lock ≠ .free
     (rate ≠ s.rate → s.preset = none → ∃ t, exec (.timebaseSet dt slot rec) s = .next t ∧
       State.Finishes { c with pendingRate := some rate, pendingRef := some f } t slot rec (.done s.rate.val rate.val) s.eventFlags.done) ∧
     (rate = s.rate → ¬afresh → ∃ t, exec (.timebaseSet dt slot rec) s = .next t ∧
       State.Finishes { c with pendingRate := none, ref := f, pendingRef := none } t slot rec (.done s.rate.val 255) s.eventFlags.done) ∧
     (rate = s.rate → afresh → ∃ t, exec (.timebaseSet dt slot rec) s = .next t ∧
       State.Finishes
         { c with
           pendingRate := none, ref := f, pendingRef := none, lock := .acquire, acqRun := none, attempts := 0,
           holdMark := false, scheduled := if s.lock = .locked then [] else s.scheduled,
           lastUsed := if s.lock = .locked then none else s.lastUsed }
         t slot rec (.done s.rate.val 255) { s.eventFlags.done with lockChange := true } ∧
       s.Tells t .lockState 0 s.pc (byteWord [s.lock.code, 1]) 9 ∧ t.Shows timePart)) ∧
  ∀ (dt : Nat) (slot : Fin 16) (rec : Beat) (s : State) (rest : List ControlBeat), s.Calm → s.Offers slot rec rest →
    let c := s.atCommand dt rest
    (∀ day label, commandCode rec = 2 → timePresetArgs (s.pendingRate.getD s.rate) rec = some (day, label) → s.preset = none →
      s.anyRolling = false → ∃ t, exec (.timePreset dt slot rec) s = .next t ∧
        State.Finishes { c with preset := some { day := day, label := label, slot := slot } } t slot rec .goesOn s.eventFlags) ∧
    (∀ mode length, commandCode rec = 3 → jamModeArgs rec = some (mode, length) →
      ∃ t, exec (.jamMode dt slot rec) s = .next t ∧
        State.Finishes { c with jamMode := mode, jamLength := length, jamRun := none, deferral := false } t slot rec
          (.done mode.code length) s.eventFlags.done ∧ (mode ≠ s.jamMode → t.Shows timePart)) ∧
    (commandCode rec = 4 → field rec 8 1 = 1 → ∃ t, exec (.referenceEnable dt slot rec) s = .next t ∧
      State.Finishes { c with refEnable := true, attempts := 0 } t slot rec (.done s.lock.code 0) s.eventFlags.done) ∧
    (commandCode rec = 4 → field rec 8 1 = 0 → s.lock = .free → ∃ t, exec (.referenceDisable dt slot rec) s = .next t ∧
      State.Finishes { c with refEnable := false } t slot rec (.done 0 s.attempts) s.eventFlags.done) ∧
    (commandCode rec = 4 → field rec 8 1 = 0 → s.lock ≠ .free → ∃ t, exec (.referenceDisable dt slot rec) s = .next t ∧
      State.Finishes
        { c with
          refEnable := false, lock := .free, acqRun := none, holdMark := false,
          scheduled := if s.lock = .locked then [] else s.scheduled,
          lastUsed := if s.lock = .locked then none else s.lastUsed }
        t slot rec (.done 0 s.attempts) { s.eventFlags.done with lockChange := true } ∧
      s.Tells t .lockState 0 s.pc (byteWord [s.lock.code, 0]) 8)

/-- R66, R67: a SOURCE_OPEN that passes every check makes its source QUALIFYING with the arguments, its slots FREE,
nothing counted, no previous header, no anchor, no group, no last stamp and the late monitor off.
R77, R79, R91: accepted SOURCE_REQUALIFY and SOURCE_CLOSE of a source that has no FILLING slot and is in no group that
is ROLLING or STOPPING: every slot without pins becomes FREE and every slot with pins RECLAIM; the anchors, the late
monitor and the membership are kept. A source that the close leaves undrained stays CLOSING, and its command PENDING.
With a FILLING slot, the slot completes first: FAULTED at a SOURCE_REQUALIFY of a LIVE source, CLOSED at a SOURCE_CLOSE of a
QUALIFYING or LIVE one. Its entry is produced where it is stamped, its held reads leave the list and are answered with slug in
their order, and it is then released with the others.
R75, R90: the FILLING slot of a source that is closed completes CLOSED: its entry is produced where it is stamped and
an index ring is set, and every read held on it leaves the list. -/
def Obligations.SourceCommandsAccepted : Prop :=
  ((∀ (dt : Nat) (slot : Fin 16) (rec : Beat) (s : State) (rest : List ControlBeat) (n : Fin 32) (x : Source), s.Calm →
     s.Offers slot rec rest → commandCode rec = 5 → sourceOpenArgs rec = some (n, x) → s.pendingRate = none →
     s.sources[n].state = .empty →
     (∀ m : Fin 32, s.sources[m].state ≠ .empty → s.sources[m].initiator ≠ x.initiator) →
     s.spanTaken x.ringBase x.ringBytes = false → s.slotsHeld + x.slotCount ≤ 512 →
     ∃ t, exec (.sourceOpen dt slot rec) s = .next t ∧
       State.Finishes ((s.atCommand dt rest).putSource n x) t slot rec (.done 0 0) s.eventFlags.done ∧
       s.Tells t .sourceState n.val s.pc (byteWord [0, 1]) 1 ∧ t.Shows (sourcePart n)) ∧
   ∀ (rec : Beat) (n : Fin 32) (x : Source), sourceOpenArgs rec = some (n, x) →
     x.state = .qualifying ∧ x.run = 0 ∧ x.rejects = 0 ∧ x.previous = none ∧ x.group = none ∧ x.anchors = [] ∧
     x.lastStamp = none ∧ x.lateMonitor = { threshold := 0, edge := .both, on := false, late := false } ∧
     x.slots = List.replicate x.slotCount Slot.free ∧ 2 ≤ x.slotCount ∧ x.slotCount ≤ 64 ∧ 1 ≤ x.bufferLength ∧
     x.ringBase % 64 = 0 ∧ x.ringBase + x.ringBytes ≤ 2 ^ 40 ∧ 1 ≤ x.rejectLimit ∧
     x.qualifyCount = if field rec 13 1 = 0 then 16 else field rec 13 1) ∧
  (∀ (dt : Nat) (slot : Fin 16) (rec : Beat) (s : State) (rest : List ControlBeat) (n : Fin 32), s.Calm →
     s.Offers slot rec rest → finField 32 rec 8 = some n → s.sources[n].fillingSlot = none →
     (∀ g, s.sources[n].group = some g → s.groups[g].state = .idle ∨ s.groups[g].state = .armed) →
     let c := s.atCommand dt rest
     let x := s.sources[n]
     let slots := x.slots.map fun y => if y.pins = 0 then Slot.free else { y with state := .reclaim }
     (commandCode rec = 6 → (x.state = .live ∨ x.state = .faulted) → ∃ t, exec (.sourceRequalify dt slot rec) s = .next t ∧
       State.Finishes (c.putSource n { x with slots := slots, run := 0, rejects := 0, previous := none, state := .qualifying })
         t slot rec (.done 0 0) s.eventFlags.done ∧
       s.Tells t .sourceState n.val s.pc (byteWord [x.state.code, 1]) 5 ∧ t.Shows (sourcePart n)) ∧
     (commandCode rec = 7 → (x.state = .qualifying ∨ x.state = .live ∨ x.state = .faulted) →
       (∃ y ∈ slots, y.state = .reclaim ∨ y.waiting.isSome = true) → ∃ t, exec (.sourceClose dt slot rec) s = .next t ∧
       State.Finishes (c.putSource n { x with slots := slots, state := .closing }) t slot rec .goesOn s.eventFlags ∧
       s.Tells t .sourceState n.val s.pc (byteWord [x.state.code, 4]) 6 ∧ t.Shows (sourcePart n)) ∧
     (commandCode rec = 7 → (x.state = .qualifying ∨ x.state = .live ∨ x.state = .faulted) →
       (∀ y ∈ slots, y.state ≠ .reclaim ∧ y.waiting = none) → ∃ t, exec (.sourceClose dt slot rec) s = .next t ∧
       t.sources[n] = Source.empty ∧ (∀ m : Fin 32, m ≠ n → t.sources[m] = s.sources[m]) ∧
       t.slots[slot] = .done ∧ t.Shows (sourcePart n) ∧
       t.Wrote (.statusRecord slot.val) (s.controlBase + statusRecordOffset slot.val)
         (answerBeat s.pc rec (.done s.sources[n].slotCount 0)))) ∧
  (∀ (dt : Nat) (slot : Fin 16) (rec : Beat) (s : State) (rest : List ControlBeat) (n : Fin 32) (i : Nat), s.Calm →
     s.Offers slot rec rest → finField 32 rec 8 = some n → s.sources[n].fillingSlot = some i →
     (∀ g, s.sources[n].group = some g → s.groups[g].state = .idle ∨ s.groups[g].state = .armed) →
     (∀ e ∈ s.heldOn n i, s.windows[e.window] ≠ none) →
     let x := s.sources[n]
     let y := x.slot i
     let slots (kind : CompletionKind) := (x.slots.set i { y with state := .complete, kind := some kind }).map
       fun z => if z.pins = 0 then Slot.free else { z with state := .reclaim }
     let left (x' : Source) (t : State) : State := { s.atCommand dt rest with
       sources := s.sources.set n x', held := s.held.filter fun e => !(e.source == n && e.slot == i), parks := t.parks,
       stream := t.stream, nextId := s.nextId + (s.heldOn n i).length,
       indexSeq := s.indexSeq + if y.stamp.isSome && y.fill.isSome then 1 else 0 }
     let handedOn (t : State) (kind : CompletionKind) : Prop :=
       t.stream.map Transaction.asks = s.stream.map Transaction.asks ++ (s.heldOn n i).map s.slugFor ∧
         (∀ j : Fin 64, t.parks[j] = if (s.heldOn n i).any (fun e => e.initiator == j) then none else s.parks[j]) ∧
         ∀ st f, y.stamp = some st → y.fill = some f → s.EntersAt t s.indexSeq (s.slotEntryOf n i kind st f)
     (commandCode rec = 6 → x.state = .live → ∃ t, exec (.sourceRequalify dt slot rec) s = .next t ∧
       State.Finishes (left { x with slots := slots .faulted, run := 0, rejects := 0, previous := none, state := .qualifying } t)
         t slot rec (.done 0 0) s.eventFlags.done ∧
       handedOn t .faulted ∧ s.Tells t .sourceState n.val s.pc (byteWord [2, 1]) 5 ∧ t.Shows (sourcePart n)) ∧
     (commandCode rec = 7 → (x.state = .qualifying ∨ x.state = .live) →
       (∃ z ∈ slots .closed, z.state = .reclaim ∨ z.waiting.isSome = true) → ∃ t, exec (.sourceClose dt slot rec) s = .next t ∧
       State.Finishes (left { x with slots := slots .closed, state := .closing } t) t slot rec .goesOn s.eventFlags ∧
       handedOn t .closed ∧ s.Tells t .sourceState n.val s.pc (byteWord [x.state.code, 4]) 6 ∧ t.Shows (sourcePart n)) ∧
     (commandCode rec = 7 → (x.state = .qualifying ∨ x.state = .live) →
       (∀ z ∈ slots .closed, z.state ≠ .reclaim ∧ z.waiting = none) → ∃ t, exec (.sourceClose dt slot rec) s = .next t ∧
       t.sources = s.sources.set n Source.empty ∧ t.slots[slot] = .done ∧ handedOn t .closed ∧
       t.held = (s.held.filter fun e => !(e.source == n && e.slot == i)) ∧ t.groups = s.groups ∧
       s.Tells t .sourceState n.val s.pc (byteWord [x.state.code, 4]) 6 ∧ t.Shows (sourcePart n) ∧
       t.Wrote (.statusRecord slot.val) (s.controlBase + statusRecordOffset slot.val)
         (answerBeat s.pc rec (.done x.slotCount 0)))) ∧
  (∀ (dt : Nat) (slot : Fin 16) (rec : Beat) (s : State) (rest : List ControlBeat) (n : Fin 32) (i : Nat), s.Calm →
     s.Offers slot rec rest → commandCode rec = 7 → finField 32 rec 8 = some n → s.sources[n].state = .live →
     s.sources[n].fillingSlot = some i →
     ∃ t, exec (.sourceClose dt slot rec) s = .next t ∧
       (t.sources[n].state = .closing ∨ t.sources[n] = Source.empty) ∧
       (∀ e ∈ t.held, ¬(e.source = n ∧ e.slot = i)) ∧
       (∀ e ∈ s.held, e.source = n → e.slot = i → t.parks[e.initiator] = none) ∧
       ∀ st f, (s.sources[n].slot i).stamp = some st → (s.sources[n].slot i).fill = some f →
         s.EntersAt t s.indexSeq (s.slotEntryOf n i .closed st f))

/-- R121, R107, R106, R98: accepted LATE_MONITOR, ANCHOR_SET and INDEX_SET. The latched late state is kept; the anchor
becomes the first of its list, and the oldest of a full list of 8 is removed. -/
def Obligations.MonitorAnchorIndexAccepted : Prop :=
  ∀ (dt : Nat) (slot : Fin 16) (rec : Beat) (s : State) (rest : List ControlBeat), s.Calm → s.Offers slot rec rest →
    let c := s.atCommand dt rest
    (∀ (n : Fin 32) threshold edge on, commandCode rec = 8 → lateMonitorArgs rec = some (n, threshold, edge, on) →
      s.sources[n].state ≠ .empty → ∃ t, exec (.lateMonitor dt slot rec) s = .next t ∧
        State.Finishes (c.putSource n { s.sources[n] with
          lateMonitor := { threshold := threshold, edge := edge, on := on, late := s.sources[n].lateMonitor.late } })
          t slot rec (.done (flagNat s.sources[n].lateMonitor.late) 0) s.eventFlags.done) ∧
    (∀ (n : Fin 32) a, commandCode rec = 9 → anchorSetArgs s.rate rec = some (n, a) → s.sources[n].state ≠ .empty →
      s.sources[n].state ≠ .closing → s.sources[n].kind ≠ .slate → s.sources[n].anchors.length ≤ 8 →
      let xs := s.sources[n].anchors
      ∃ t, exec (.anchorSet dt slot rec) s = .next t ∧
        State.Finishes (c.putSource n { s.sources[n] with anchors := a :: xs.take 7 }) t slot rec
          (.done (min (xs.length + 1) 8) (if xs.length = 8 then (xs.getLastD Anchor.absent).origin.code else 0)) s.eventFlags.done) ∧
    (∀ ring, commandCode rec = 10 → indexSetArgs rec = some ring →
      (∀ n : Fin 32, s.sources[n].state ≠ .qualifying ∧ s.sources[n].state ≠ .live) →
      spansOverlap ring.base (ring.capacity * 64) s.controlBase controlLength = false →
      ∃ t, exec (.indexSet dt slot rec) s = .next t ∧
        State.Finishes { c with indexRing := some ring } t slot rec (.done s.indexSeq 0) s.eventFlags.done ∧ t.Shows indexPart)

/-- R124, R117: an accepted GROUP_SET. A named source is a member; a member that is not named is one no more, and is
removed from the expected members of an OPEN clap match of the group, which closes if none is left unmatched. -/
def Obligations.GroupSetAccepted : Prop :=
  ∀ (dt : Nat) (slot : Fin 16) (rec : Beat) (s : State) (rest : List ControlBeat) (g : Fin 8) (named : List (Fin 32)), s.Calm →
    s.Offers slot rec rest → commandCode rec = 11 → groupSetArgs rec = some (g, named) → s.groups[g].state = .idle →
    (∀ n ∈ named, s.sources[n].state ≠ .empty ∧ (s.sources[n].group = none ∨ s.sources[n].group = some g)) →
    let leaves (n : Fin 32) : Bool := s.sources[n].group == some g && !named.contains n
    ∃ t u, exec (.groupSet dt slot rec) s = .next t ∧
      u = { s.atCommand dt rest with sources := u.sources, claps := u.claps } ∧
      State.Finishes u t slot rec (.done named.length 0) s.eventFlags.done ∧
      (∀ n : Fin 32, u.sources[n] = if named.contains n then { s.sources[n] with group := some g }
        else if s.sources[n].group = some g then { s.sources[n] with group := none } else s.sources[n]) ∧
      (∀ h : Fin 8, h ≠ g → u.claps[h] = s.claps[h]) ∧
      u.claps[g] = s.claps[g].bind fun m =>
        if m.expected.any (fun e => leaves e.1) then { m with expected := m.expected.filter fun e => !leaves e.1 }.orComplete
        else some m

/-- R125, R128, R130, R131: accepted take commands. TAKE_ARM makes its group ARMED, and gives it a requested roll count for
AT_TIME (with another mode it keeps the one it had, log entry 48); TAKE_STOP gives a ROLLING group its
stop count, and stays PENDING; TAKE_ABANDON disarms an ARMED group without an entry, and ends the take of a ROLLING or
STOPPING one at the count standing, with the completion of its stop command. -/
def Obligations.TakeCommandsAccepted : Prop :=
  ∀ (dt : Nat) (slot : Fin 16) (rec : Beat) (s : State) (rest : List ControlBeat) (g : Fin 8), s.Calm → s.Offers slot rec rest →
    let c := s.atCommand dt rest
    let x := s.groups[g]
    (∀ mode count, commandCode rec = 12 → takeArmArgs s.rate rec = some (g, mode, count) → s.pendingRate = none →
      x.state = .idle → x.take ≠ 65535 → ∃ t, exec (.takeArm dt slot rec) s = .next t ∧
        State.Finishes (c.putGroup g { x with
          state := .armed, rollMode := mode, requestedRoll := if mode = .atTime then count else x.requestedRoll,
          rollDue := decide (mode = .now) })
          t slot rec (.done (x.take + 1) 0) { s.eventFlags.done with takeChange := true } ∧ t.Shows (groupPart g)) ∧
    (commandCode rec = 13 → takeStopArgs s.rate rec = some (g, none) → x.state = .rolling → x.stopCount = none →
      ∃ t, exec (.takeStop dt slot rec) s = .next t ∧
        State.Finishes (c.putGroup g { x with
          stopCount := some ((s.pc + 1) % s.rate.range), passed := [], stopCommand := some slot })
          t slot rec .goesOn s.eventFlags) ∧
    (∀ count, commandCode rec = 13 → takeStopArgs s.rate rec = some (g, some count) → x.state = .rolling → x.stopCount = none →
      0 < signedDiff s.rate count x.rollCount → ∃ t, exec (.takeStop dt slot rec) s = .next t ∧
        State.Finishes (c.putGroup g { x with stopCount := some count, passed := [], stopCommand := some slot })
          t slot rec .goesOn s.eventFlags) ∧
    (commandCode rec = 14 → finField 8 rec 8 = some g → x.state = .armed → ∃ t, exec (.takeAbandon dt slot rec) s = .next t ∧
        State.Finishes (c.putGroup g { x with state := .idle, rollDue := false }) t slot rec (.done 0 0)
          { s.eventFlags.done with takeChange := true } ∧ t.Shows (groupPart g)) ∧
    (commandCode rec = 14 → finField 8 rec 8 = some g → (x.state = .rolling ∨ x.state = .stopping) →
      ∃ t, exec (.takeAbandon dt slot rec) s = .next t ∧ s.EndsTake t g x.state s.pc s.pc .abandoned ∧
        t.groups = s.groups.set g (x.afterTake s.pc) ∧ t.indexSeq = s.indexSeq + 1 ∧ t.slots[slot] = .done ∧
        t.Wrote (.statusRecord slot.val) (s.controlBase + statusRecordOffset slot.val) (answerBeat s.pc rec (.done 0 0)) ∧
        (∀ m : Fin 4, s.markers[m].trigger ≠ .takeEnd g → t.markers[m] = s.markers[m]) ∧
        t.sources = s.sources ∧ t.windows = s.windows ∧ t.pc = s.pc ∧ t.claps = s.claps)

/-- R140 to R143: accepted window commands. WINDOW_OPEN sets every field of the record and the target at once (WindowTargets
gives the targets); WINDOW_CUE changes only what aims the window, keeping the cue stamp in LIVE_DELAY and the delay in a cue
mode (R138); WINDOW_CLOSE answers every held read of the window with slug, in arrival order. (Of delay and cue, the field that
the mode of a WINDOW_OPEN does not read: log entry 41.) -/
def Obligations.WindowCommandsAccepted : Prop :=
  ∀ (dt : Nat) (slot : Fin 16) (rec : Beat) (s : State) (rest : List ControlBeat), s.Calm → s.Offers slot rec rest →
    let c := s.atCommand dt rest
    (∀ a : WindowOpenArgs, commandCode rec = 15 → windowOpenArgs s.rate rec = some a → s.pendingRate = none →
      s.windows[a.window] = none →
      let x := s.sources[a.source]
      x.state ≠ .empty → x.state ≠ .closing → x.kind = .camera → (∀ cue, a.aim.cue = some cue → cue.frac < x.speedRatio) →
      a.base + x.bufferLength * 64 ≤ 2 ^ 40 → a.slugBase + x.bufferLength * 64 ≤ 2 ^ 40 →
      s.spanTaken a.base (x.bufferLength * 64) = false →
      let target := aimTarget s.rate s.pc a.aim
      ∃ t, exec (.windowOpen dt slot rec) s = .next t ∧
        State.Finishes (c.putWindow a.window (some
          { base := a.base, length := x.bufferLength * 64, source := a.source, bound := true, speedRatio := x.speedRatio,
            mode := a.aim.mode, delay := a.aim.delay, cue := a.aim.cue, target := target, holdLimit := a.holdLimit,
            slugBase := a.slugBase, slugReported := none }))
          t slot rec (.done (x.bufferLength * 64) target.count) s.eventFlags.done ∧ t.Shows (windowPart a.window)) ∧
    (∀ (w : Fin 8) aim x, commandCode rec = 16 → windowCueArgs s.rate rec = some (w, aim) → s.windows[w] = some x →
      (∀ cue, aim.cue = some cue → cue.frac < x.speedRatio) →
      let target := aimTarget s.rate s.pc aim
      ∃ t, exec (.windowCue dt slot rec) s = .next t ∧
        State.Finishes (c.putWindow w (some { x with
          mode := aim.mode, delay := if aim.mode = .liveDelay then aim.delay else x.delay,
          cue := if aim.mode = .liveDelay then x.cue else aim.cue, target := target, slugReported := none }))
          t slot rec (.done target.count 0) s.eventFlags.done ∧ t.Shows (windowPart w)) ∧
    (∀ (w : Fin 8) x, commandCode rec = 17 → finField 8 rec 8 = some w → s.windows[w] = some x →
      let entries := s.held.filter fun e => e.window == w
      ∃ t, exec (.windowClose dt slot rec) s = .next t ∧ t.windows = s.windows.set w none ∧
        t.held = s.held.filter (fun e => e.window != w) ∧
        t.stream.map Transaction.asks = s.stream.map Transaction.asks ++ entries.map s.slugFor ∧
        (∀ i : Fin 64, t.parks[i] = if entries.any (fun e => e.initiator == i) then none else s.parks[i]) ∧
        t.redirects = s.redirects ∧ t.sources = s.sources ∧ t.groups = s.groups ∧ t.slots = s.slots.set slot .done ∧
        t.Shows (windowPart w) ∧
        t.Wrote (.statusRecord slot.val) (s.controlBase + statusRecordOffset slot.val) (answerBeat s.pc rec (.done entries.length 0)))

/-- R136: MARKER, run whole by whichever of its rows takes the record: a row takes one that holds its part, beside others or
alone, or one with no part (log entry 18). SET replaces trigger, width and count, and ends a train if the trigger is NONE; STOP
ends the train, whatever else the record holds; FIRE without STOP starts one unless the trigger is NONE; a record with no part
leaves the line as it is. The first result word says whether a train then runs. -/
def Obligations.MarkerCommands : Prop :=
  ∀ (dt : Nat) (slot : Fin 16) (rec : Beat) (s : State) (rest : List ControlBeat) (m : Fin 4), s.Calm → s.Offers slot rec rest →
    commandCode rec = 18 → finField 4 rec 8 = some m →
    let c := s.atCommand dt rest
    let x := s.markers[m]
    let started (w n : Nat) : Option Train :=
      some { width := w, count := n, pulse := 1, high := true, partEnd := c.now + w * 27000 }
    ∀ row ∈ ([(.markerSet dt slot rec, markerHasSet rec), (.markerFire dt slot rec, markerHasFire rec),
        (.markerStop dt slot rec, markerHasStop rec)] : List (Instr × Bool)),
      (row.2 = true ∨ (markerHasSet rec = false ∧ markerHasFire rec = false ∧ markerHasStop rec = false)) →
      (∀ trigger width count, markerHasSet rec = true → markerSetArgs rec = some (trigger, width, count) →
        let train := if markerHasStop rec then none else if trigger = .none then none
          else if markerHasFire rec then started width count else x.train
        ∃ t, exec row.1 s = .next t ∧
          State.Finishes (c.putMarker m { trigger := trigger, width := width, count := count, train := train }) t slot rec
            (.done (flagNat train.isSome) 0) s.eventFlags.done) ∧
      (markerHasSet rec = false →
        let train := if markerHasStop rec then none else if markerHasFire rec ∧ x.trigger ≠ .none then started x.width x.count
          else x.train
        ∃ t, exec row.1 s = .next t ∧
          State.Finishes (c.putMarker m { x with train := train }) t slot rec (.done (flagNat train.isSome) 0) s.eventFlags.done)

/-- R170: ATTENTION_ACK clears the flags it names, also while a drain runs; its completion sets COMMAND_DONE unless that
is named, and its first result word is the set of flags standing after it (after its own completion, log entry 25). The
attention-and-ring beat follows a change of the set (log entry 49). -/
def Obligations.AttentionAckTaken : Prop :=
  ∀ (dt : Nat) (slot : Fin 16) (rec : Beat) (s : State) (rest : List ControlBeat), s.Calm →
    s.inbox = slotBeat slot rec :: rest → s.slots[slot].isPending = false → commandCode rec = 19 →
    let named : BitVec 8 := BitVec.ofNat 8 (field rec 8 1)
    ∃ t, exec (.attentionAck dt slot rec) s = .next t ∧ (s.atCommand dt rest).Reports t ∧ t.slots = s.slots.set slot .done ∧
      ({ s.eventFlags.acknowledge named with commandDone := !named.getLsbD 7 } : EventFlags).UpToOverrun t.eventFlags ∧
      t.Wrote (.statusRecord slot.val) (s.controlBase + statusRecordOffset slot.val) (answerBeat s.pc rec (.done t.flags 0)) ∧
      (t.flags ≠ s.flags → t.Shows attentionPart)

/-- R171, R157: a RESTART that finds redirected reads in flight. Every other PENDING command completes with
ABORTED_RESTART, the pending preset is discarded, every held read is answered with slug in arrival order, and the drain
begins with the RESTART PENDING.
R173: at the event that leaves the redirect table empty the drain ends, be it the taking of RESTART itself or a later
one: every source, group, window, match and marker is cleared, the flags are cleared and COMMAND_DONE is set, the RESTART
completes with the number of sources made EMPTY, and the header beat shows RESTART. The row of the drain's end acts only in a
state in which its condition stands, which no run reaches, and changes nothing in another (log entry 3). R183, R184: where
the taking of RESTART or that row ends the drain, the rewrite of the attention-and-ring beat, which shows the flags and the
counts as they then stand, is the event's last own write (log entry 19; for the drain that a response ends, LastPinReleases says
that the beat is rewritten). -/
def Obligations.RestartDrains : Prop :=
  (∀ (dt : Nat) (slot : Fin 16) (rec : Beat) (s : State) (rest : List ControlBeat), s.Calm → s.Offers slot rec rest →
     commandCode rec = 20 → s.redirects ≠ [] → (∀ e ∈ s.held, s.windows[e.window] ≠ none) →
     ∃ t, exec (.restart dt slot rec) s = .next t ∧ t.drain = some slot ∧ t.preset = none ∧ t.held = [] ∧
       t.slots[slot] = .pending rec false ∧
       (∀ k : Fin 16, k ≠ slot → t.slots[k] = if s.slots[k].isPending then .done else s.slots[k]) ∧
       (∀ (k : Fin 16) rc d, s.slots[k] = .pending rc d → t.Wrote (.statusRecord k.val)
         (s.controlBase + statusRecordOffset k.val) (statusRecordBeat 2 2 (commandCode rc) (flagNat d) (commandTag rc) 0 0 0)) ∧
       t.Wrote (.statusRecord slot.val) (s.controlBase + statusRecordOffset slot.val) (answerBeat s.pc rec .goesOn) ∧
       t.stream.map Transaction.asks = s.stream.map Transaction.asks ++ s.held.map s.slugFor ∧
       (∀ i : Fin 64, t.parks[i] = if s.held.any (fun e => e.initiator == i) then none else s.parks[i]) ∧
       (∀ g : Fin 8, t.groups[g] = { s.groups[g] with stopCommand := none }) ∧
       t.sources = s.sources ∧ t.windows = s.windows ∧ t.markers = s.markers ∧ t.claps = s.claps ∧
       t.redirects = s.redirects ∧ t.pc = s.pc ∧ t.settings = s.settings) ∧
  (∀ (dt : Nat) (slot : Fin 16) (rec : Beat) (s : State) (rest : List ControlBeat), s.Calm → s.Offers slot rec rest →
    commandCode rec = 20 → s.redirects = [] →
    ∃ t, exec (.restart dt slot rec) s = .next t ∧ t.drain = none ∧ t.Bare ∧ t.held = [] ∧ t.startKind = .restart ∧
      t.slots[slot] = .done ∧ t.Shows headerPart ∧ EventFlags.clear.done.UpToOverrun t.eventFlags ∧
      t.Wrote (.statusRecord slot.val) (s.controlBase + statusRecordOffset slot.val)
        (answerBeat s.pc rec (.done s.openSources 0)) ∧
      t.pc = s.pc ∧ t.settings = s.settings ∧ t.indexSeq = s.indexSeq ∧ t.consumer = s.consumer ∧
      t.ShowsLast attentionPart) ∧
  (∀ (s : State) (slot : Fin 16) (rec : Beat) (c : Bool), s.Calm → s.drain = some slot → s.redirects = [] →
    s.slots[slot] = .pending rec c →
    ∃ t, exec .restartDrainEnd s = .next t ∧ (s.wait 0).EndsDrain t slot rec c s.openSources ∧ t.slots = s.slots.set slot .done ∧
      t.indexSeq = s.indexSeq ∧ t.ShowsLast attentionPart) ∧
  ∀ s : State, s.Calm → (s.drain = none ∨ s.redirects ≠ []) → exec .restartDrainEnd s = .next (s.wait 0)

/-! ### Refusals -/

/-- R168, R29, R42, R37, R62, R169, R53: when TIMEBASE_SET, TIME_PRESET, JAM_MODE and REFERENCE are refused, by the tables of
their rules: the first condition that holds decides the result, and the command ends with it, changing nothing else. -/
def Obligations.TimeCommandsRefused : Prop :=
  ∀ (dt : Nat) (slot : Fin 16) (rec : Beat) (s : State) (rest : List ControlBeat), s.Calm → s.Offers slot rec rest →
    let rate := s.pendingRate.getD s.rate
    let label : Label := { hours := field rec 10 1, minutes := field rec 11 1, seconds := field rec 12 1, frames := field rec 13 1 }
    (commandCode rec = 1 → s.RefusedBy (.timebaseSet dt slot rec) dt slot rec rest [
      (10 < field rec 8 1 ∨ field rec 9 1 < 1 ∨ 2 < field rec 9 1 ∨ field rec 12 1 < 2 ∨ 63 < field rec 12 1 ∨
        field rec 14 2 < 27 ∨ 27000 < field rec 14 2 ∨ field rec 13 1 < 1 ∨ 15 < field rec 13 1 ∨
        (field rec 9 1 = 2 ∧ field rec 8 1 = 0), .refusedRange),
      ((∃ n : Fin 32, s.sources[n].state ≠ .empty) ∨ (∃ g : Fin 8, s.groups[g].state ≠ .idle) ∨
        (∃ w : Fin 8, s.windows[w] ≠ none), .refusedState),
      (s.preset ≠ none ∧ field rec 8 1 ≠ s.rate.val, .refusedState)]) ∧
    (commandCode rec = 2 → s.RefusedBy (.timePreset dt slot rec) dt slot rec rest [
      (1 < field rec 14 1 ∨ label.valid rate = false ∨ (rate.isDrop = true ↔ field rec 14 1 = 0), .refusedRange),
      (s.preset ≠ none, .refusedState),
      (∃ g : Fin 8, s.groups[g].state = .rolling ∨ s.groups[g].state = .stopping, .refusedState)]) ∧
    (commandCode rec = 3 → s.RefusedBy (.jamMode dt slot rec) dt slot rec rest [
      (2 < field rec 8 1 ∨ field rec 9 1 < 2 ∨ 15 < field rec 9 1, .refusedRange)]) ∧
    (commandCode rec = 4 → s.RefusedBy (.referenceEnable dt slot rec) dt slot rec rest [(1 < field rec 8 1, .refusedRange)] ∧
      s.RefusedBy (.referenceDisable dt slot rec) dt slot rec rest [(1 < field rec 8 1, .refusedRange)])

/-- R66, R65, R29, R77, R79, R121, R107, R98: when SOURCE_OPEN, SOURCE_REQUALIFY, SOURCE_CLOSE, LATE_MONITOR, ANCHOR_SET and
INDEX_SET are refused, by the tables of their rules: the first condition that holds decides the result, and the command ends
with it, changing nothing else. -/
def Obligations.SourceCommandsRefused : Prop :=
  ∀ (dt : Nat) (slot : Fin 16) (rec : Beat) (s : State) (rest : List ControlBeat), s.Calm → s.Offers slot rec rest →
    let named (p : Source → Prop) : Prop := ∃ n : Fin 32, n.val = field rec 8 1 ∧ p s.sources[n]
    let kind := field rec 9 1
    let ring := field rec 44 1 * field rec 40 4 * 64
    (commandCode rec = 5 → s.RefusedBy (.sourceOpen dt slot rec) dt slot rec rest [
      (31 < field rec 8 1 ∨ kind < 1 ∨ 3 < kind ∨ 63 < field rec 10 1 ∨ 1 < field rec 12 1 ∨ 15 < field rec 14 1 ∨
        2 ^ 40 ≤ field rec 32 8 ∨ field rec 32 8 % 64 ≠ 0 ∨ field rec 40 4 < 1 ∨ 16777215 < field rec 40 4 ∨
        (kind = 3 ∧ field rec 40 4 ≠ 1) ∨ field rec 44 1 < 2 ∨ 64 < field rec 44 1 ∨
        (kind = 1 ∧ (field rec 45 1 < 1 ∨ 8 < field rec 45 1)) ∨ (kind = 2 ∧ (2 < field rec 45 1 ∨ field rec 48 2 < 1)) ∨
        (kind ≠ 3 ∧ 15 < field rec 46 1) ∨ (kind = 3 ∧ 1048575 < field rec 52 4) ∨ 2 ^ 40 < field rec 32 8 + ring, .refusedRange),
      (s.pendingRate ≠ none, .refusedState),
      (named fun x => x.state ≠ .empty, .refusedState),
      (∃ m : Fin 32, s.sources[m].state ≠ .empty ∧ s.sources[m].initiator.val = field rec 10 1, .refusedOverlap),
      (∃ p ∈ s.spans, spansOverlap (field rec 32 8) ring p.1 p.2 = true, .refusedOverlap),
      (512 < s.slotsHeld + field rec 44 1, .refusedFull)]) ∧
    (commandCode rec = 6 → s.RefusedBy (.sourceRequalify dt slot rec) dt slot rec rest [
      (31 < field rec 8 1, .refusedRange),
      (named fun x => x.state = .empty ∨ x.state = .qualifying ∨ x.state = .closing, .refusedState)]) ∧
    (commandCode rec = 7 → s.RefusedBy (.sourceClose dt slot rec) dt slot rec rest [
      (31 < field rec 8 1, .refusedRange),
      (named fun x => x.state = .empty ∨ x.state = .closing, .refusedState)]) ∧
    (commandCode rec = 8 → s.RefusedBy (.lateMonitor dt slot rec) dt slot rec rest [
      (31 < field rec 8 1 ∨ 15 < field rec 9 1 ∨ field rec 10 1 < 1 ∨ 3 < field rec 10 1 ∨ 1 < field rec 11 1, .refusedRange),
      (named fun x => x.state = .empty, .refusedState)]) ∧
    (commandCode rec = 9 → s.RefusedBy (.anchorSet dt slot rec) dt slot rec rest [
      (31 < field rec 8 1 ∨ s.rate.range ≤ field rec 16 8 ∨ 4 < field rec 9 1, .refusedRange),
      (named fun x => x.state = .empty ∨ x.state = .closing ∨ x.kind = .slate, .refusedState)]) ∧
    (commandCode rec = 10 → s.RefusedBy (.indexSet dt slot rec) dt slot rec rest [
      (field rec 16 8 % 64 ≠ 0 ∨ field rec 8 4 < 1024 ∨ 1048576 < field rec 8 4 ∨ 2 ^ 40 < field rec 16 8 + field rec 8 4 * 64,
        .refusedRange),
      (∃ n : Fin 32, s.sources[n].state = .qualifying ∨ s.sources[n].state = .live, .refusedState),
      (spansOverlap (field rec 16 8) (field rec 8 4 * 64) s.controlBase controlLength = true, .refusedOverlap)])

/-- R124, R125, R128, R131, R140, R142, R143, R136, R29: when GROUP_SET, TAKE_ARM, TAKE_STOP, TAKE_ABANDON, WINDOW_OPEN,
WINDOW_CUE, WINDOW_CLOSE and MARKER are refused, by the tables of their rules: the first condition that holds decides the
result, and the command ends with it, changing nothing else. -/
def Obligations.GroupAndWindowCommandsRefused : Prop :=
  ∀ (dt : Nat) (slot : Fin 16) (rec : Beat) (s : State) (rest : List ControlBeat), s.Calm → s.Offers slot rec rest →
    let group (p : Group → Prop) : Prop := ∃ g : Fin 8, g.val = field rec 8 1 ∧ p s.groups[g]
    let window (p : Option Window → Prop) : Prop := ∃ w : Fin 8, w.val = field rec 8 1 ∧ p s.windows[w]
    let bound (p : Source → Prop) : Prop := ∃ n : Fin 32, n.val = field rec 9 1 ∧ p s.sources[n]
    let mode := field rec 10 1
    let cued := mode = 2 ∨ mode = 3
    (commandCode rec = 11 → s.RefusedBy (.groupSet dt slot rec) dt slot rec rest [
      (7 < field rec 8 1, .refusedRange),
      (group fun x => x.state ≠ .idle, .refusedState),
      (∃ n : Fin 32, fieldBit rec 12 n.val = true ∧ s.sources[n].state = .empty, .refusedState),
      (∃ n : Fin 32, fieldBit rec 12 n.val = true ∧ ∃ h : Fin 8, s.sources[n].group = some h ∧ h.val ≠ field rec 8 1,
        .refusedOverlap)]) ∧
    (commandCode rec = 12 → s.RefusedBy (.takeArm dt slot rec) dt slot rec rest [
      (7 < field rec 8 1 ∨ field rec 9 1 < 1 ∨ 3 < field rec 9 1 ∨ (field rec 9 1 = 1 ∧ s.rate.range ≤ field rec 16 8), .refusedRange),
      (s.pendingRate ≠ none, .refusedState),
      (group fun x => x.state ≠ .idle, .refusedState),
      (group fun x => x.take = 65535, .refusedState)]) ∧
    (commandCode rec = 13 → s.RefusedBy (.takeStop dt slot rec) dt slot rec rest [
      (7 < field rec 8 1 ∨ 1 < field rec 9 1 ∨ (field rec 9 1 = 0 ∧ s.rate.range ≤ field rec 16 8), .refusedRange),
      (group fun x => x.state ≠ .rolling ∨ x.stopCount ≠ none, .refusedState),
      (field rec 9 1 = 0 ∧ group fun x => signedDiff s.rate (field rec 16 8) x.rollCount ≤ 0, .refusedRange)]) ∧
    (commandCode rec = 14 → s.RefusedBy (.takeAbandon dt slot rec) dt slot rec rest [
      (7 < field rec 8 1, .refusedRange),
      (group fun x => x.state = .idle, .refusedState)]) ∧
    (commandCode rec = 15 → s.RefusedBy (.windowOpen dt slot rec) dt slot rec rest [
      (7 < field rec 8 1 ∨ 2 ^ 40 ≤ field rec 16 8 ∨ field rec 16 8 % 4096 ≠ 0 ∨ 31 < field rec 9 1 ∨ mode < 1 ∨ 3 < mode ∨
        field rec 12 2 < 1 ∨ 2 ^ 40 ≤ field rec 24 8 ∨ field rec 24 8 % 64 ≠ 0 ∨ (cued ∧ s.rate.range ≤ field rec 32 8), .refusedRange),
      (s.pendingRate ≠ none, .refusedState),
      (window fun x => x ≠ none, .refusedState),
      (bound fun x => x.state = .empty ∨ x.state = .closing ∨ x.kind ≠ .camera, .refusedState),
      (bound fun x => (cued ∧ x.speedRatio ≤ field rec 14 1) ∨ 2 ^ 40 < field rec 16 8 + x.bufferLength * 64 ∨
        2 ^ 40 < field rec 24 8 + x.bufferLength * 64, .refusedRange),
      (bound fun x => ∃ p ∈ s.spans, spansOverlap (field rec 16 8) (x.bufferLength * 64) p.1 p.2 = true, .refusedOverlap)]) ∧
    (commandCode rec = 16 → s.RefusedBy (.windowCue dt slot rec) dt slot rec rest [
      (7 < field rec 8 1 ∨ mode < 1 ∨ 3 < mode ∨ (cued ∧ s.rate.range ≤ field rec 32 8), .refusedRange),
      (window fun x => x = none, .refusedState),
      (cued ∧ window fun x => ∃ y, x = some y ∧ y.speedRatio ≤ field rec 14 1, .refusedRange)]) ∧
    (commandCode rec = 17 → s.RefusedBy (.windowClose dt slot rec) dt slot rec rest [
      (7 < field rec 8 1, .refusedRange),
      (window fun x => x = none, .refusedState)]) ∧
    (commandCode rec = 18 →
      let table : List (Prop × ResultCode) := [
        (3 < field rec 8 1, .refusedRange),
        (markerHasSet rec = true ∧ (5 < mode ∨ (2 ≤ mode ∧ mode ≤ 4 ∧ 7 < field rec 11 1) ∨ field rec 12 1 < 1 ∨ 7 < field rec 12 1 ∨
          field rec 14 2 < 1 ∨ 250 < field rec 14 2), .refusedRange)]
      (markerHasSet rec = true → s.RefusedBy (.markerSet dt slot rec) dt slot rec rest table) ∧
      (markerHasFire rec = true → s.RefusedBy (.markerFire dt slot rec) dt slot rec rest table) ∧
      (markerHasStop rec = true → s.RefusedBy (.markerStop dt slot rec) dt slot rec rest table))

/-- R166, R167: a record written into a PENDING slot only sets its collision mark; a code that names no command is
REFUSED_UNKNOWN; and while a drain runs every command but ATTENTION_ACK, a second RESTART and a code that names no command
included, is REFUSED_STATE without reaching its owner (log entries 17, 38).
R66, R29, R37, R77, R79, R98, R107, R121, R124, R125, R128, R131, R140, R142, R143, R165, R168: a command that its owner
refuses changes nothing of the owner's, whatever the reason. -/
def Obligations.RefusalsChangeNothing : Prop :=
  (∀ (dt : Nat) (slot : Fin 16) (rec : Beat) (s : State) (rest : List ControlBeat), s.Calm →
     s.inbox = slotBeat slot rec :: rest →
     let c := s.atCommand dt rest
     (∀ old mark, s.slots[slot] = .pending old mark →
       exec (.collision dt slot rec) s = .next { c with slots := s.slots.set slot (.pending old true) }) ∧
     (s.slots[slot].isPending = false → s.drain = none → (commandCode rec = 0 ∨ 20 < commandCode rec) →
       ∃ t, exec (.commandUnknown dt slot rec) s = .next t ∧
         State.Finishes c t slot rec (.refused .refusedUnknown) s.eventFlags.done) ∧
     ∀ p ∈ ([(.timebaseSet dt slot rec, commandCode rec == 1), (.timePreset dt slot rec, commandCode rec == 2),
        (.jamMode dt slot rec, commandCode rec == 3), (.referenceEnable dt slot rec, commandCode rec == 4 && field rec 8 1 == 1),
        (.referenceDisable dt slot rec, commandCode rec == 4 && field rec 8 1 == 0), (.sourceOpen dt slot rec, commandCode rec == 5),
        (.sourceRequalify dt slot rec, commandCode rec == 6), (.sourceClose dt slot rec, commandCode rec == 7),
        (.lateMonitor dt slot rec, commandCode rec == 8), (.anchorSet dt slot rec, commandCode rec == 9),
        (.indexSet dt slot rec, commandCode rec == 10), (.groupSet dt slot rec, commandCode rec == 11),
        (.takeArm dt slot rec, commandCode rec == 12), (.takeStop dt slot rec, commandCode rec == 13),
        (.takeAbandon dt slot rec, commandCode rec == 14), (.windowOpen dt slot rec, commandCode rec == 15),
        (.windowCue dt slot rec, commandCode rec == 16), (.windowClose dt slot rec, commandCode rec == 17),
        (.markerSet dt slot rec, commandCode rec == 18 && markerHasSet rec),
        (.markerFire dt slot rec, commandCode rec == 18 && markerHasFire rec),
        (.markerStop dt slot rec, commandCode rec == 18 && markerHasStop rec), (.restart dt slot rec, commandCode rec == 20),
        (.commandUnknown dt slot rec, commandCode rec == 0 || decide (20 < commandCode rec))] : List (Instr × Bool)),
      p.2 = true → s.slots[slot].isPending = false → s.drain ≠ none →
      ∃ t, exec p.1 s = .next t ∧ State.Finishes c t slot rec (.refused .refusedState) s.eventFlags.done) ∧
  ∀ (s u : State) (slot : Fin 16) (rec : Beat) (c : ResultCode),
    (u, CommandResult.refused c) ∈ [s.ownTimebaseSet rec, s.ownTimePreset slot rec, s.ownJamMode rec, s.ownReference rec,
      s.ownSourceOpen rec, s.ownSourceRequalify rec, s.ownSourceClose rec, s.ownLateMonitor rec, s.ownAnchorSet rec,
      s.ownIndexSet rec, s.ownGroupSet rec, s.ownTakeArm rec, s.ownTakeStop slot rec, s.ownTakeAbandon rec,
      s.ownWindowOpen rec, s.ownWindowCue rec, s.ownWindowClose rec, s.ownMarker rec] →
    u = s ∧ c ≠ .done ∧ c ≠ .abortedRestart

/-! ### Picture-time arithmetic and formats -/

/-- R31 to R33: labels name the frames of a day. At every rate the label of a frame-of-day is valid and leads back to it,
and a valid label names a frame of the day whose label it is. -/
def Obligations.LabelsNameFrames : Prop :=
  ∀ r : Rate,
    (∀ f, f < r.framesPerDay → (labelOf r f).valid r = true ∧ (labelOf r f).frameOfDay r = f) ∧
    ∀ l : Label, l.valid r = true → l.frameOfDay r < r.framesPerDay ∧ labelOf r (l.frameOfDay r) = l

/-- R94: the stamp of a camera header at signed distance `d` from its anchor, at speed ratio `q`: the floor and the remainder
of d by q. A camera source is stamped so from the anchor that R93 selects: the newest at or below the header's position, or
else the oldest, with BEFORE_ANCHOR. -/
def Obligations.CameraStampRule : Prop :=
  (∀ (r : Rate) (pc q : Nat) (d : Int), 1 ≤ q →
    ∃ k : Int, ∃ sub : Nat, d = k * q + sub ∧ sub < q ∧
      cameraStamp r pc q d = { count := (((pc : Int) + k) % (r.range : Int)).toNat, frac := sub }) ∧
  (∀ (x : Source) (r : Rate) (p : Word64) (arrivalPc phase : Nat), x.kind = .camera →
    let a := selectAnchor x.anchors p
    x.stampOf r p arrivalPc phase = (cameraStamp r a.1.pc x.speedRatio (p - a.1.position).toInt, a.2)) ∧
  ∀ (p : Word64) (a : Anchor) (newer older : List Anchor), (∀ b ∈ newer, p < b.position) →
    (a.position ≤ p → selectAnchor (newer ++ a :: older) p = (a, false)) ∧
    (p < a.position → older = [] → selectAnchor (newer ++ a :: older) p = (a, true))

/-- R95, R36: the stamp of a sound header at signed distance `d` from its anchor of cadence base `c`: the frame k whose span
holds it, and the samples into that frame, fewer than the frame has. A sound source is stamped so from the anchor selected. -/
def Obligations.SoundStampRule : Prop :=
  (∀ (r : Rate) (sr : SampleRate) (pc c : Nat) (d : Int), c < 5 →
    ∃ k : Int, span r sr c k ≤ d ∧ d < span r sr c (k + 1) ∧
      soundStamp r sr pc c d = { count := (((pc : Int) + k) % (r.range : Int)).toNat, frac := (d - span r sr c k).toNat } ∧
      (soundStamp r sr pc c d).frac < samplesPerFrame r sr (cadencePosition c k)) ∧
  ∀ (x : Source) (r : Rate) (p : Word64) (arrivalPc phase : Nat), x.kind = .sound →
    let a := selectAnchor x.anchors p
    x.stampOf r p arrivalPc phase = (soundStamp r x.sampleRate a.1.pc a.1.base (p - a.1.position).toInt, a.2)

/-- R96: the stamp of a slate header, from the arrival count and phase and the latency, and at most three frames back,
whatever its anchors. -/
def Obligations.SlateStampRule : Prop :=
  (∀ (r : Rate) (pc phase latency : Nat),
    (latency ≤ phase → slateStamp r pc phase latency = { count := pc, frac := min (phase - latency) (r.period - 1) }) ∧
    (phase < latency → ∃ j : Nat, latency ≤ phase + j * r.period ∧ phase + (j - 1) * r.period < latency ∧
      slateStamp r pc phase latency =
        { count := (((pc : Int) - j) % (r.range : Int)).toNat, frac := min (phase + j * r.period - latency) (r.period - 1) } ∧
      (latency ≤ 1048575 → j ≤ 3))) ∧
  ∀ (x : Source) (r : Rate) (p : Word64) (arrivalPc phase : Nat), x.kind = .slate →
    x.stampOf r p arrivalPc phase = (slateStamp r arrivalPc phase x.latencyTicks, false)

/-- R97, R186: the stamp area is the 16 bytes at offsets 40 to 55; the other 48 bytes of a header go on as the source
wrote them, and status, reason, flags, fraction and count stand at their places. A stamped header carries status STAMPED (1),
its stamp and its flags BEFORE_ANCHOR (bit 0), GAP, LATE and EARLY; a QUALIFYING one status 2 and zeros; a rejected one
status 3, its reason, LEAD 1, IDENTITY 2, KEY 3, ORDER 4 or SOURCE_FAULTED 5, and zeros. -/
def Obligations.StampAreaWritten : Prop :=
  (∀ (b : Beat) (status reason flags frac count : Nat), status < 256 → reason < 256 → flags < 256 → frac < 2 ^ 32 →
     count < 2 ^ 64 →
     let d := writeStampArea b status reason flags frac count
     (∀ i, i < 40 ∨ (56 ≤ i ∧ i < 64) → field d i 1 = field b i 1) ∧ field d 40 1 = status ∧ field d 41 1 = reason ∧
       field d 42 1 = flags ∧ field d 43 1 = 0 ∧ field d 44 4 = frac ∧ field d 48 8 = count) ∧
  ∀ b : Beat,
    (∀ (st : Stamp) (f : StampFlags), stampedBeat b st f =
      writeStampArea b 1 0 (flagNat f.beforeAnchor + 2 * flagNat f.gap + 4 * flagNat f.late + 8 * flagNat f.early) st.frac st.count) ∧
    qualifyingBeat b = writeStampArea b 2 0 0 0 0 ∧ rejectedBeat b .lead = writeStampArea b 3 1 0 0 0 ∧
    rejectedBeat b .identity = writeStampArea b 3 2 0 0 0 ∧ rejectedBeat b .key = writeStampArea b 3 3 0 0 0 ∧
    rejectedBeat b .order = writeStampArea b 3 4 0 0 0 ∧ rejectedBeat b .sourceFaulted = writeStampArea b 3 5 0 0 0

/-- R176: when a report is handed over: nothing is written with its kind off; with room it is written at the producer
count, which goes up by one; in a full ring it is not, and REPORT_OVERRUN is set. The flag of its event is set in each case,
START is always enabled, and the unconsumed records stay within 15,359.
R180: the flags that a report handed over sets, by its kind; and the set of flags, REPORT_PENDING as the level of the ring and
the seven event flags, in the order of their bits. R181: ATTN is high while a flag is set whose enable in S0 is on, and low while
RST_N is low. -/
def Obligations.ReportRingRule : Prop :=
  (∀ (kind : ReportKind) (f : EventFlags), kind.raises f =
    { f with
      lockChange := f.lockChange || decide (kind = .lockState ∨ kind = .referenceRejected)
      slip := f.slip || decide (kind = .slip ∨ kind = .clapUnmatched)
      takeChange := f.takeChange || decide (kind = .takeState)
      window := f.window || decide (kind = .heldTimeout ∨ kind = .slugServed ∨ kind = .heldListFull) }) ∧
  (∀ s : State,
    let f := s.eventFlags
    (List.range 8).map s.flags.testBit = [decide (s.producer ≠ s.consumer), f.overrun, f.lockChange, f.sourceFault, f.slip,
      f.takeChange, f.window, f.commandDone] ∧
    s.flags < 256 ∧
    (s.attn = true ↔ s.rstn = true ∧ ∃ k, k < 8 ∧ s.flags.testBit k = true ∧ s.settings[0].getLsbD k = true)) ∧
  ∀ (s : State) (pc : Nat) (kind : ReportKind) (subject d1 d2 : Nat),
    let t := s.reportAt pc kind subject d1 d2
    s.Reports t ∧ t.slots = s.slots ∧ s.reportEnabled .start = true ∧
    (s.producer - s.consumer ≤ 15359 → t.producer - t.consumer ≤ 15359) ∧
    (s.reportEnabled kind = false → t.producer = s.producer ∧ t.ownQueue = s.ownQueue ∧ t.offered = s.offered ∧
      t.eventFlags = kind.raises s.eventFlags) ∧
    (s.reportEnabled kind = true → s.producer - s.consumer < 15359 → t.producer = s.producer + 1 ∧
      t.eventFlags = kind.raises s.eventFlags ∧ s.Tells t kind subject pc d1 d2) ∧
    (s.reportEnabled kind = true → 15359 ≤ s.producer - s.consumer → t.producer = s.producer ∧ t.ownQueue = s.ownQueue ∧
      t.offered = s.offered ∧ t.eventFlags = { kind.raises s.eventFlags with overrun := true })

/-! ### Laws that every step keeps -/

/-- R14, R15, R21, R22, R41, R52, R148, R151, R160, R161, R175 to R177: the bounds of the queues, lists and registers. The
own-write queue holds at most 32 entries, and writes are offered only while it holds 32; queue and offered writes together
hold at most one write-back for each of S0 to S6, and each goes to the settings beat; the held-read list holds at most 16 entries and the redirect table at
most 32; every settings word is in range; the unconsumed report records never exceed 15,359, and the consumer copy never
passes the producer count; the picture count stays below R of the rate in effect; and boundaries are scheduled, and a last
used pulse held, only in LOCKED. Each law is kept by every step on its own. -/
def Obligations.BoundsKept : Prop :=
  ∀ s t : State, step s = .next t →
    (s.QueueLaw → t.QueueLaw) ∧ (s.WriteBackLaw → t.WriteBackLaw) ∧ (s.WriteBackPlaceLaw → t.WriteBackPlaceLaw) ∧
    (s.CapacityLaw → t.CapacityLaw) ∧ (s.SettingsLaw → t.SettingsLaw) ∧ (s.RingLaw → t.RingLaw) ∧ (s.CountLaw → t.CountLaw) ∧
    (s.ScheduleLaw → t.ScheduleLaw)

/-- R66, R74, R81, R89, R105: a LIVE camera or sound source keeps at least one anchor, no list holds more than 8, the
slots held by all sources never exceed 512, an EMPTY source holds nothing, no FILLING slot stands with its beats counted at
the buffer length, and the control window, the OPEN windows and the rings of the sources that are not EMPTY never overlap.
Each law is kept by every step on its own. -/
def Obligations.SourceLawsKept : Prop :=
  ∀ s t : State, step s = .next t →
    (s.AnchorLaw → t.AnchorLaw) ∧ (s.AnchorBound → t.AnchorBound) ∧ (s.PoolLaw → t.PoolLaw) ∧ (s.EmptyLaw → t.EmptyLaw) ∧
    (s.BeatLaw → t.BeatLaw) ∧ (s.SpanLaw → t.SpanLaw)

/-- R10, R66, R85, R92, R151: the laws of the memory path, which lean on one another. A source has at most one FILLING slot,
and none unless it is QUALIFYING or LIVE; a RECLAIM slot has a pin; the pins of all slots are the entries of the redirect
table; each held read names an OPEN window bound to a LIVE source and a FILLING slot of it with the entry's target, and parks
its initiator. Every step keeps them together, with the facts of PathLaw that they rest on. -/
def Obligations.MemoryPathLawsKept : Prop :=
  ∀ s t : State, step s = .next t → s.PathLaw → t.PathLaw

/-- R183: after every event of a running bridge, each part of the status block that shows something else than before it
has been rewritten as it stands, and none is left to rewrite. -/
def Obligations.StatusBlockFollows : Prop :=
  ∀ (c : Instr) (s t : State), s.Calm → (∀ dt cwb, c ≠ .powerOn dt cwb) → exec c s = .next t → t.rstn = true →
    t.dirty = [] ∧ ∀ n, n < 64 → t.partBeat n = s.partBeat n ∨ t.Shows n

/-- R1: over every event of a running bridge, the requests of an initiator that it answers and those it leaves are
together those that were unanswered, in the order of their taking, followed by the one the event takes, if it takes one;
and the numbers of the requests stay below the next one. -/
def Obligations.ResponsesInOrder : Prop :=
  ∀ (c : Instr) (s t : State), s.rstn = true → (∀ dt cwb, c ≠ .powerOn dt cwb) → (∀ dt, c ≠ .resetAssert dt) →
    exec c s = .next t →
    (∀ i : Fin 64, ∃ new : List Nat, new.length ≤ 1 ∧ t.answered i ++ t.unanswered i = s.unanswered i ++ new) ∧
    (s.IdLaw → t.IdLaw)

/-- The state at reset, with the straps at 0 (log entry 12): the values the manual gives (R40, R57, R83, R98, R104, R133, R137, R158, R160, R174, R184), and
every law of this file. -/
def Obligations.ResetState : Prop :=
  let s := State.reset
  s.rate.val = 1 ∧ s.pendingRate = none ∧ s.pc = 0 ∧ s.phase = 0 ∧ s.preset = none ∧ s.jamMode = .off ∧ s.jamLength = 4 ∧
  s.jamRun = none ∧ s.deferral = false ∧ s.fpo = false ∧ s.lock = .free ∧ s.refEnable = false ∧
  s.ref = { divider := 1, phaseOffset := 0, lockCount := 8, tolerance := 270, attemptLimit := 4 } ∧ s.attempts = 0 ∧
  s.acqRun = none ∧ s.strict = 0 ∧ s.holdCount = 0 ∧ s.excursion = false ∧ s.Bare ∧ s.indexRing = none ∧ s.indexSeq = 0 ∧
  s.held = [] ∧ s.redirects = [] ∧ s.offered = [] ∧ s.linkOpen = false ∧ s.drain = none ∧
  (∀ k : Fin 16, s.slots[k] = .idle) ∧ (∀ m : Fin 4, s.markers[m] = { trigger := .none, width := 1, count := 1, train := none }) ∧
  s.settings[0] = 0 ∧ (∀ k : ReportKind, s.reportEnabled k = true) ∧ s.fineStep = 3 ∧ s.fineRelock = false ∧
  s.strictFlag = true ∧ s.holdoverLimit = 1500 ∧ s.highMark = 24 ∧ s.ageLimit = 20 ∧ s.tailLimit = 8 ∧ s.clapWindow = 12 ∧
  s.cameraStep = 2 ∧ s.soundStep = 3 ∧ s.slipAdopt = true ∧ s.producer = 0 ∧ s.consumer = 0 ∧ s.flags = 0 ∧ s.attn = false ∧
  s.ownQueue = startUpWrites .powerOn 0 0 ∧
  s.IdLaw ∧ s.QueueLaw ∧ s.WriteBackLaw ∧ s.WriteBackPlaceLaw ∧ s.CountLaw ∧ s.ScheduleLaw ∧ s.SpanLaw ∧ s.PoolLaw ∧ s.AnchorLaw ∧ s.AnchorBound ∧
  s.EmptyLaw ∧ s.FillingLaw ∧ s.ReclaimLaw ∧ s.BeatLaw ∧ s.PinLaw ∧ s.CapacityLaw ∧ s.HeldLaw ∧ s.ParkLaw ∧ s.SettingsLaw ∧
  s.RingLaw ∧ s.SettledLaw ∧ s.PathLaw

end
end

