-- ==== Sys2Proof/Laws/State.lean ====
section
/-! SUPPORT. One lemma per field per update: what the updates of one record of the state leave as it was, and what they
write. Each is true by definition; later proofs cite them and do not unfold an update. -/

namespace Sys2Proof.Machine

/-! #### putSource -/

@[simp] theorem State.putSource_pending (s : State) (n : Fin 32) (x : Source) : (s.putSource n x).pending = s.pending := rfl
@[simp] theorem State.putSource_rstn (s : State) (n : Fin 32) (x : Source) : (s.putSource n x).rstn = s.rstn := rfl
@[simp] theorem State.putSource_cwb (s : State) (n : Fin 32) (x : Source) : (s.putSource n x).cwb = s.cwb := rfl
@[simp] theorem State.putSource_startKind (s : State) (n : Fin 32) (x : Source) : (s.putSource n x).startKind = s.startKind := rfl
@[simp] theorem State.putSource_linkOpen (s : State) (n : Fin 32) (x : Source) : (s.putSource n x).linkOpen = s.linkOpen := rfl
@[simp] theorem State.putSource_startupFaults (s : State) (n : Fin 32) (x : Source) : (s.putSource n x).startupFaults = s.startupFaults := rfl
@[simp] theorem State.putSource_now (s : State) (n : Fin 32) (x : Source) : (s.putSource n x).now = s.now := rfl
@[simp] theorem State.putSource_presented (s : State) (n : Fin 32) (x : Source) : (s.putSource n x).presented = s.presented := rfl
@[simp] theorem State.putSource_waiting (s : State) (n : Fin 32) (x : Source) : (s.putSource n x).waiting = s.waiting := rfl
@[simp] theorem State.putSource_nextId (s : State) (n : Fin 32) (x : Source) : (s.putSource n x).nextId = s.nextId := rfl
@[simp] theorem State.putSource_outstanding (s : State) (n : Fin 32) (x : Source) : (s.putSource n x).outstanding = s.outstanding := rfl
@[simp] theorem State.putSource_parks (s : State) (n : Fin 32) (x : Source) : (s.putSource n x).parks = s.parks := rfl
@[simp] theorem State.putSource_returned (s : State) (n : Fin 32) (x : Source) : (s.putSource n x).returned = s.returned := rfl
@[simp] theorem State.putSource_stream (s : State) (n : Fin 32) (x : Source) : (s.putSource n x).stream = s.stream := rfl
@[simp] theorem State.putSource_ownQueue (s : State) (n : Fin 32) (x : Source) : (s.putSource n x).ownQueue = s.ownQueue := rfl
@[simp] theorem State.putSource_offered (s : State) (n : Fin 32) (x : Source) : (s.putSource n x).offered = s.offered := rfl
@[simp] theorem State.putSource_inFlight (s : State) (n : Fin 32) (x : Source) : (s.putSource n x).inFlight = s.inFlight := rfl
@[simp] theorem State.putSource_inFlightOwn (s : State) (n : Fin 32) (x : Source) : (s.putSource n x).inFlightOwn = s.inFlightOwn := rfl
@[simp] theorem State.putSource_rate (s : State) (n : Fin 32) (x : Source) : (s.putSource n x).rate = s.rate := rfl
@[simp] theorem State.putSource_pendingRate (s : State) (n : Fin 32) (x : Source) : (s.putSource n x).pendingRate = s.pendingRate := rfl
@[simp] theorem State.putSource_pc (s : State) (n : Fin 32) (x : Source) : (s.putSource n x).pc = s.pc := rfl
@[simp] theorem State.putSource_phase (s : State) (n : Fin 32) (x : Source) : (s.putSource n x).phase = s.phase := rfl
@[simp] theorem State.putSource_preset (s : State) (n : Fin 32) (x : Source) : (s.putSource n x).preset = s.preset := rfl
@[simp] theorem State.putSource_jamMode (s : State) (n : Fin 32) (x : Source) : (s.putSource n x).jamMode = s.jamMode := rfl
@[simp] theorem State.putSource_jamLength (s : State) (n : Fin 32) (x : Source) : (s.putSource n x).jamLength = s.jamLength := rfl
@[simp] theorem State.putSource_jamRun (s : State) (n : Fin 32) (x : Source) : (s.putSource n x).jamRun = s.jamRun := rfl
@[simp] theorem State.putSource_deferral (s : State) (n : Fin 32) (x : Source) : (s.putSource n x).deferral = s.deferral := rfl
@[simp] theorem State.putSource_fpo (s : State) (n : Fin 32) (x : Source) : (s.putSource n x).fpo = s.fpo := rfl
@[simp] theorem State.putSource_lock (s : State) (n : Fin 32) (x : Source) : (s.putSource n x).lock = s.lock := rfl
@[simp] theorem State.putSource_refEnable (s : State) (n : Fin 32) (x : Source) : (s.putSource n x).refEnable = s.refEnable := rfl
@[simp] theorem State.putSource_ref (s : State) (n : Fin 32) (x : Source) : (s.putSource n x).ref = s.ref := rfl
@[simp] theorem State.putSource_pendingRef (s : State) (n : Fin 32) (x : Source) : (s.putSource n x).pendingRef = s.pendingRef := rfl
@[simp] theorem State.putSource_attempts (s : State) (n : Fin 32) (x : Source) : (s.putSource n x).attempts = s.attempts := rfl
@[simp] theorem State.putSource_acqRun (s : State) (n : Fin 32) (x : Source) : (s.putSource n x).acqRun = s.acqRun := rfl
@[simp] theorem State.putSource_holdMark (s : State) (n : Fin 32) (x : Source) : (s.putSource n x).holdMark = s.holdMark := rfl
@[simp] theorem State.putSource_lastUsed (s : State) (n : Fin 32) (x : Source) : (s.putSource n x).lastUsed = s.lastUsed := rfl
@[simp] theorem State.putSource_usedNext (s : State) (n : Fin 32) (x : Source) : (s.putSource n x).usedNext = s.usedNext := rfl
@[simp] theorem State.putSource_scheduled (s : State) (n : Fin 32) (x : Source) : (s.putSource n x).scheduled = s.scheduled := rfl
@[simp] theorem State.putSource_excursion (s : State) (n : Fin 32) (x : Source) : (s.putSource n x).excursion = s.excursion := rfl
@[simp] theorem State.putSource_strict (s : State) (n : Fin 32) (x : Source) : (s.putSource n x).strict = s.strict := rfl
@[simp] theorem State.putSource_holdCount (s : State) (n : Fin 32) (x : Source) : (s.putSource n x).holdCount = s.holdCount := rfl
@[simp] theorem State.putSource_sources (s : State) (n : Fin 32) (x : Source) : (s.putSource n x).sources = s.sources.set n x := rfl
@[simp] theorem State.putSource_indexRing (s : State) (n : Fin 32) (x : Source) : (s.putSource n x).indexRing = s.indexRing := rfl
@[simp] theorem State.putSource_indexSeq (s : State) (n : Fin 32) (x : Source) : (s.putSource n x).indexSeq = s.indexSeq := rfl
@[simp] theorem State.putSource_claps (s : State) (n : Fin 32) (x : Source) : (s.putSource n x).claps = s.claps := rfl
@[simp] theorem State.putSource_groups (s : State) (n : Fin 32) (x : Source) : (s.putSource n x).groups = s.groups := rfl
@[simp] theorem State.putSource_markers (s : State) (n : Fin 32) (x : Source) : (s.putSource n x).markers = s.markers := rfl
@[simp] theorem State.putSource_windows (s : State) (n : Fin 32) (x : Source) : (s.putSource n x).windows = s.windows := rfl
@[simp] theorem State.putSource_held (s : State) (n : Fin 32) (x : Source) : (s.putSource n x).held = s.held := rfl
@[simp] theorem State.putSource_redirects (s : State) (n : Fin 32) (x : Source) : (s.putSource n x).redirects = s.redirects := rfl
@[simp] theorem State.putSource_inbox (s : State) (n : Fin 32) (x : Source) : (s.putSource n x).inbox = s.inbox := rfl
@[simp] theorem State.putSource_settings (s : State) (n : Fin 32) (x : Source) : (s.putSource n x).settings = s.settings := rfl
@[simp] theorem State.putSource_slots (s : State) (n : Fin 32) (x : Source) : (s.putSource n x).slots = s.slots := rfl
@[simp] theorem State.putSource_drain (s : State) (n : Fin 32) (x : Source) : (s.putSource n x).drain = s.drain := rfl
@[simp] theorem State.putSource_producer (s : State) (n : Fin 32) (x : Source) : (s.putSource n x).producer = s.producer := rfl
@[simp] theorem State.putSource_consumer (s : State) (n : Fin 32) (x : Source) : (s.putSource n x).consumer = s.consumer := rfl
@[simp] theorem State.putSource_eventFlags (s : State) (n : Fin 32) (x : Source) : (s.putSource n x).eventFlags = s.eventFlags := rfl
@[simp] theorem State.putSource_dirty (s : State) (n : Fin 32) (x : Source) : (s.putSource n x).dirty = s.dirty := rfl
@[simp] theorem State.putSource_orders (s : State) (n : Fin 32) (x : Source) : (s.putSource n x).orders = s.orders := rfl

/-! #### putGroup -/

@[simp] theorem State.putGroup_pending (s : State) (g : Fin 8) (x : Group) : (s.putGroup g x).pending = s.pending := rfl
@[simp] theorem State.putGroup_rstn (s : State) (g : Fin 8) (x : Group) : (s.putGroup g x).rstn = s.rstn := rfl
@[simp] theorem State.putGroup_cwb (s : State) (g : Fin 8) (x : Group) : (s.putGroup g x).cwb = s.cwb := rfl
@[simp] theorem State.putGroup_startKind (s : State) (g : Fin 8) (x : Group) : (s.putGroup g x).startKind = s.startKind := rfl
@[simp] theorem State.putGroup_linkOpen (s : State) (g : Fin 8) (x : Group) : (s.putGroup g x).linkOpen = s.linkOpen := rfl
@[simp] theorem State.putGroup_startupFaults (s : State) (g : Fin 8) (x : Group) : (s.putGroup g x).startupFaults = s.startupFaults := rfl
@[simp] theorem State.putGroup_now (s : State) (g : Fin 8) (x : Group) : (s.putGroup g x).now = s.now := rfl
@[simp] theorem State.putGroup_presented (s : State) (g : Fin 8) (x : Group) : (s.putGroup g x).presented = s.presented := rfl
@[simp] theorem State.putGroup_waiting (s : State) (g : Fin 8) (x : Group) : (s.putGroup g x).waiting = s.waiting := rfl
@[simp] theorem State.putGroup_nextId (s : State) (g : Fin 8) (x : Group) : (s.putGroup g x).nextId = s.nextId := rfl
@[simp] theorem State.putGroup_outstanding (s : State) (g : Fin 8) (x : Group) : (s.putGroup g x).outstanding = s.outstanding := rfl
@[simp] theorem State.putGroup_parks (s : State) (g : Fin 8) (x : Group) : (s.putGroup g x).parks = s.parks := rfl
@[simp] theorem State.putGroup_returned (s : State) (g : Fin 8) (x : Group) : (s.putGroup g x).returned = s.returned := rfl
@[simp] theorem State.putGroup_stream (s : State) (g : Fin 8) (x : Group) : (s.putGroup g x).stream = s.stream := rfl
@[simp] theorem State.putGroup_ownQueue (s : State) (g : Fin 8) (x : Group) : (s.putGroup g x).ownQueue = s.ownQueue := rfl
@[simp] theorem State.putGroup_offered (s : State) (g : Fin 8) (x : Group) : (s.putGroup g x).offered = s.offered := rfl
@[simp] theorem State.putGroup_inFlight (s : State) (g : Fin 8) (x : Group) : (s.putGroup g x).inFlight = s.inFlight := rfl
@[simp] theorem State.putGroup_inFlightOwn (s : State) (g : Fin 8) (x : Group) : (s.putGroup g x).inFlightOwn = s.inFlightOwn := rfl
@[simp] theorem State.putGroup_rate (s : State) (g : Fin 8) (x : Group) : (s.putGroup g x).rate = s.rate := rfl
@[simp] theorem State.putGroup_pendingRate (s : State) (g : Fin 8) (x : Group) : (s.putGroup g x).pendingRate = s.pendingRate := rfl
@[simp] theorem State.putGroup_pc (s : State) (g : Fin 8) (x : Group) : (s.putGroup g x).pc = s.pc := rfl
@[simp] theorem State.putGroup_phase (s : State) (g : Fin 8) (x : Group) : (s.putGroup g x).phase = s.phase := rfl
@[simp] theorem State.putGroup_preset (s : State) (g : Fin 8) (x : Group) : (s.putGroup g x).preset = s.preset := rfl
@[simp] theorem State.putGroup_jamMode (s : State) (g : Fin 8) (x : Group) : (s.putGroup g x).jamMode = s.jamMode := rfl
@[simp] theorem State.putGroup_jamLength (s : State) (g : Fin 8) (x : Group) : (s.putGroup g x).jamLength = s.jamLength := rfl
@[simp] theorem State.putGroup_jamRun (s : State) (g : Fin 8) (x : Group) : (s.putGroup g x).jamRun = s.jamRun := rfl
@[simp] theorem State.putGroup_deferral (s : State) (g : Fin 8) (x : Group) : (s.putGroup g x).deferral = s.deferral := rfl
@[simp] theorem State.putGroup_fpo (s : State) (g : Fin 8) (x : Group) : (s.putGroup g x).fpo = s.fpo := rfl
@[simp] theorem State.putGroup_lock (s : State) (g : Fin 8) (x : Group) : (s.putGroup g x).lock = s.lock := rfl
@[simp] theorem State.putGroup_refEnable (s : State) (g : Fin 8) (x : Group) : (s.putGroup g x).refEnable = s.refEnable := rfl
@[simp] theorem State.putGroup_ref (s : State) (g : Fin 8) (x : Group) : (s.putGroup g x).ref = s.ref := rfl
@[simp] theorem State.putGroup_pendingRef (s : State) (g : Fin 8) (x : Group) : (s.putGroup g x).pendingRef = s.pendingRef := rfl
@[simp] theorem State.putGroup_attempts (s : State) (g : Fin 8) (x : Group) : (s.putGroup g x).attempts = s.attempts := rfl
@[simp] theorem State.putGroup_acqRun (s : State) (g : Fin 8) (x : Group) : (s.putGroup g x).acqRun = s.acqRun := rfl
@[simp] theorem State.putGroup_holdMark (s : State) (g : Fin 8) (x : Group) : (s.putGroup g x).holdMark = s.holdMark := rfl
@[simp] theorem State.putGroup_lastUsed (s : State) (g : Fin 8) (x : Group) : (s.putGroup g x).lastUsed = s.lastUsed := rfl
@[simp] theorem State.putGroup_usedNext (s : State) (g : Fin 8) (x : Group) : (s.putGroup g x).usedNext = s.usedNext := rfl
@[simp] theorem State.putGroup_scheduled (s : State) (g : Fin 8) (x : Group) : (s.putGroup g x).scheduled = s.scheduled := rfl
@[simp] theorem State.putGroup_excursion (s : State) (g : Fin 8) (x : Group) : (s.putGroup g x).excursion = s.excursion := rfl
@[simp] theorem State.putGroup_strict (s : State) (g : Fin 8) (x : Group) : (s.putGroup g x).strict = s.strict := rfl
@[simp] theorem State.putGroup_holdCount (s : State) (g : Fin 8) (x : Group) : (s.putGroup g x).holdCount = s.holdCount := rfl
@[simp] theorem State.putGroup_sources (s : State) (g : Fin 8) (x : Group) : (s.putGroup g x).sources = s.sources := rfl
@[simp] theorem State.putGroup_indexRing (s : State) (g : Fin 8) (x : Group) : (s.putGroup g x).indexRing = s.indexRing := rfl
@[simp] theorem State.putGroup_indexSeq (s : State) (g : Fin 8) (x : Group) : (s.putGroup g x).indexSeq = s.indexSeq := rfl
@[simp] theorem State.putGroup_claps (s : State) (g : Fin 8) (x : Group) : (s.putGroup g x).claps = s.claps := rfl
@[simp] theorem State.putGroup_groups (s : State) (g : Fin 8) (x : Group) : (s.putGroup g x).groups = s.groups.set g x := rfl
@[simp] theorem State.putGroup_markers (s : State) (g : Fin 8) (x : Group) : (s.putGroup g x).markers = s.markers := rfl
@[simp] theorem State.putGroup_windows (s : State) (g : Fin 8) (x : Group) : (s.putGroup g x).windows = s.windows := rfl
@[simp] theorem State.putGroup_held (s : State) (g : Fin 8) (x : Group) : (s.putGroup g x).held = s.held := rfl
@[simp] theorem State.putGroup_redirects (s : State) (g : Fin 8) (x : Group) : (s.putGroup g x).redirects = s.redirects := rfl
@[simp] theorem State.putGroup_inbox (s : State) (g : Fin 8) (x : Group) : (s.putGroup g x).inbox = s.inbox := rfl
@[simp] theorem State.putGroup_settings (s : State) (g : Fin 8) (x : Group) : (s.putGroup g x).settings = s.settings := rfl
@[simp] theorem State.putGroup_slots (s : State) (g : Fin 8) (x : Group) : (s.putGroup g x).slots = s.slots := rfl
@[simp] theorem State.putGroup_drain (s : State) (g : Fin 8) (x : Group) : (s.putGroup g x).drain = s.drain := rfl
@[simp] theorem State.putGroup_producer (s : State) (g : Fin 8) (x : Group) : (s.putGroup g x).producer = s.producer := rfl
@[simp] theorem State.putGroup_consumer (s : State) (g : Fin 8) (x : Group) : (s.putGroup g x).consumer = s.consumer := rfl
@[simp] theorem State.putGroup_eventFlags (s : State) (g : Fin 8) (x : Group) : (s.putGroup g x).eventFlags = s.eventFlags := rfl
@[simp] theorem State.putGroup_dirty (s : State) (g : Fin 8) (x : Group) : (s.putGroup g x).dirty = s.dirty := rfl
@[simp] theorem State.putGroup_orders (s : State) (g : Fin 8) (x : Group) : (s.putGroup g x).orders = s.orders := rfl

/-! #### putClap -/

@[simp] theorem State.putClap_pending (s : State) (g : Fin 8) (x : Option ClapMatch) : (s.putClap g x).pending = s.pending := rfl
@[simp] theorem State.putClap_rstn (s : State) (g : Fin 8) (x : Option ClapMatch) : (s.putClap g x).rstn = s.rstn := rfl
@[simp] theorem State.putClap_cwb (s : State) (g : Fin 8) (x : Option ClapMatch) : (s.putClap g x).cwb = s.cwb := rfl
@[simp] theorem State.putClap_startKind (s : State) (g : Fin 8) (x : Option ClapMatch) : (s.putClap g x).startKind = s.startKind := rfl
@[simp] theorem State.putClap_linkOpen (s : State) (g : Fin 8) (x : Option ClapMatch) : (s.putClap g x).linkOpen = s.linkOpen := rfl
@[simp] theorem State.putClap_startupFaults (s : State) (g : Fin 8) (x : Option ClapMatch) : (s.putClap g x).startupFaults = s.startupFaults := rfl
@[simp] theorem State.putClap_now (s : State) (g : Fin 8) (x : Option ClapMatch) : (s.putClap g x).now = s.now := rfl
@[simp] theorem State.putClap_presented (s : State) (g : Fin 8) (x : Option ClapMatch) : (s.putClap g x).presented = s.presented := rfl
@[simp] theorem State.putClap_waiting (s : State) (g : Fin 8) (x : Option ClapMatch) : (s.putClap g x).waiting = s.waiting := rfl
@[simp] theorem State.putClap_nextId (s : State) (g : Fin 8) (x : Option ClapMatch) : (s.putClap g x).nextId = s.nextId := rfl
@[simp] theorem State.putClap_outstanding (s : State) (g : Fin 8) (x : Option ClapMatch) : (s.putClap g x).outstanding = s.outstanding := rfl
@[simp] theorem State.putClap_parks (s : State) (g : Fin 8) (x : Option ClapMatch) : (s.putClap g x).parks = s.parks := rfl
@[simp] theorem State.putClap_returned (s : State) (g : Fin 8) (x : Option ClapMatch) : (s.putClap g x).returned = s.returned := rfl
@[simp] theorem State.putClap_stream (s : State) (g : Fin 8) (x : Option ClapMatch) : (s.putClap g x).stream = s.stream := rfl
@[simp] theorem State.putClap_ownQueue (s : State) (g : Fin 8) (x : Option ClapMatch) : (s.putClap g x).ownQueue = s.ownQueue := rfl
@[simp] theorem State.putClap_offered (s : State) (g : Fin 8) (x : Option ClapMatch) : (s.putClap g x).offered = s.offered := rfl
@[simp] theorem State.putClap_inFlight (s : State) (g : Fin 8) (x : Option ClapMatch) : (s.putClap g x).inFlight = s.inFlight := rfl
@[simp] theorem State.putClap_inFlightOwn (s : State) (g : Fin 8) (x : Option ClapMatch) : (s.putClap g x).inFlightOwn = s.inFlightOwn := rfl
@[simp] theorem State.putClap_rate (s : State) (g : Fin 8) (x : Option ClapMatch) : (s.putClap g x).rate = s.rate := rfl
@[simp] theorem State.putClap_pendingRate (s : State) (g : Fin 8) (x : Option ClapMatch) : (s.putClap g x).pendingRate = s.pendingRate := rfl
@[simp] theorem State.putClap_pc (s : State) (g : Fin 8) (x : Option ClapMatch) : (s.putClap g x).pc = s.pc := rfl
@[simp] theorem State.putClap_phase (s : State) (g : Fin 8) (x : Option ClapMatch) : (s.putClap g x).phase = s.phase := rfl
@[simp] theorem State.putClap_preset (s : State) (g : Fin 8) (x : Option ClapMatch) : (s.putClap g x).preset = s.preset := rfl
@[simp] theorem State.putClap_jamMode (s : State) (g : Fin 8) (x : Option ClapMatch) : (s.putClap g x).jamMode = s.jamMode := rfl
@[simp] theorem State.putClap_jamLength (s : State) (g : Fin 8) (x : Option ClapMatch) : (s.putClap g x).jamLength = s.jamLength := rfl
@[simp] theorem State.putClap_jamRun (s : State) (g : Fin 8) (x : Option ClapMatch) : (s.putClap g x).jamRun = s.jamRun := rfl
@[simp] theorem State.putClap_deferral (s : State) (g : Fin 8) (x : Option ClapMatch) : (s.putClap g x).deferral = s.deferral := rfl
@[simp] theorem State.putClap_fpo (s : State) (g : Fin 8) (x : Option ClapMatch) : (s.putClap g x).fpo = s.fpo := rfl
@[simp] theorem State.putClap_lock (s : State) (g : Fin 8) (x : Option ClapMatch) : (s.putClap g x).lock = s.lock := rfl
@[simp] theorem State.putClap_refEnable (s : State) (g : Fin 8) (x : Option ClapMatch) : (s.putClap g x).refEnable = s.refEnable := rfl
@[simp] theorem State.putClap_ref (s : State) (g : Fin 8) (x : Option ClapMatch) : (s.putClap g x).ref = s.ref := rfl
@[simp] theorem State.putClap_pendingRef (s : State) (g : Fin 8) (x : Option ClapMatch) : (s.putClap g x).pendingRef = s.pendingRef := rfl
@[simp] theorem State.putClap_attempts (s : State) (g : Fin 8) (x : Option ClapMatch) : (s.putClap g x).attempts = s.attempts := rfl
@[simp] theorem State.putClap_acqRun (s : State) (g : Fin 8) (x : Option ClapMatch) : (s.putClap g x).acqRun = s.acqRun := rfl
@[simp] theorem State.putClap_holdMark (s : State) (g : Fin 8) (x : Option ClapMatch) : (s.putClap g x).holdMark = s.holdMark := rfl
@[simp] theorem State.putClap_lastUsed (s : State) (g : Fin 8) (x : Option ClapMatch) : (s.putClap g x).lastUsed = s.lastUsed := rfl
@[simp] theorem State.putClap_usedNext (s : State) (g : Fin 8) (x : Option ClapMatch) : (s.putClap g x).usedNext = s.usedNext := rfl
@[simp] theorem State.putClap_scheduled (s : State) (g : Fin 8) (x : Option ClapMatch) : (s.putClap g x).scheduled = s.scheduled := rfl
@[simp] theorem State.putClap_excursion (s : State) (g : Fin 8) (x : Option ClapMatch) : (s.putClap g x).excursion = s.excursion := rfl
@[simp] theorem State.putClap_strict (s : State) (g : Fin 8) (x : Option ClapMatch) : (s.putClap g x).strict = s.strict := rfl
@[simp] theorem State.putClap_holdCount (s : State) (g : Fin 8) (x : Option ClapMatch) : (s.putClap g x).holdCount = s.holdCount := rfl
@[simp] theorem State.putClap_sources (s : State) (g : Fin 8) (x : Option ClapMatch) : (s.putClap g x).sources = s.sources := rfl
@[simp] theorem State.putClap_indexRing (s : State) (g : Fin 8) (x : Option ClapMatch) : (s.putClap g x).indexRing = s.indexRing := rfl
@[simp] theorem State.putClap_indexSeq (s : State) (g : Fin 8) (x : Option ClapMatch) : (s.putClap g x).indexSeq = s.indexSeq := rfl
@[simp] theorem State.putClap_claps (s : State) (g : Fin 8) (x : Option ClapMatch) : (s.putClap g x).claps = s.claps.set g x := rfl
@[simp] theorem State.putClap_groups (s : State) (g : Fin 8) (x : Option ClapMatch) : (s.putClap g x).groups = s.groups := rfl
@[simp] theorem State.putClap_markers (s : State) (g : Fin 8) (x : Option ClapMatch) : (s.putClap g x).markers = s.markers := rfl
@[simp] theorem State.putClap_windows (s : State) (g : Fin 8) (x : Option ClapMatch) : (s.putClap g x).windows = s.windows := rfl
@[simp] theorem State.putClap_held (s : State) (g : Fin 8) (x : Option ClapMatch) : (s.putClap g x).held = s.held := rfl
@[simp] theorem State.putClap_redirects (s : State) (g : Fin 8) (x : Option ClapMatch) : (s.putClap g x).redirects = s.redirects := rfl
@[simp] theorem State.putClap_inbox (s : State) (g : Fin 8) (x : Option ClapMatch) : (s.putClap g x).inbox = s.inbox := rfl
@[simp] theorem State.putClap_settings (s : State) (g : Fin 8) (x : Option ClapMatch) : (s.putClap g x).settings = s.settings := rfl
@[simp] theorem State.putClap_slots (s : State) (g : Fin 8) (x : Option ClapMatch) : (s.putClap g x).slots = s.slots := rfl
@[simp] theorem State.putClap_drain (s : State) (g : Fin 8) (x : Option ClapMatch) : (s.putClap g x).drain = s.drain := rfl
@[simp] theorem State.putClap_producer (s : State) (g : Fin 8) (x : Option ClapMatch) : (s.putClap g x).producer = s.producer := rfl
@[simp] theorem State.putClap_consumer (s : State) (g : Fin 8) (x : Option ClapMatch) : (s.putClap g x).consumer = s.consumer := rfl
@[simp] theorem State.putClap_eventFlags (s : State) (g : Fin 8) (x : Option ClapMatch) : (s.putClap g x).eventFlags = s.eventFlags := rfl
@[simp] theorem State.putClap_dirty (s : State) (g : Fin 8) (x : Option ClapMatch) : (s.putClap g x).dirty = s.dirty := rfl
@[simp] theorem State.putClap_orders (s : State) (g : Fin 8) (x : Option ClapMatch) : (s.putClap g x).orders = s.orders := rfl

/-! #### putMarker -/

@[simp] theorem State.putMarker_pending (s : State) (m : Fin 4) (x : Marker) : (s.putMarker m x).pending = s.pending := rfl
@[simp] theorem State.putMarker_rstn (s : State) (m : Fin 4) (x : Marker) : (s.putMarker m x).rstn = s.rstn := rfl
@[simp] theorem State.putMarker_cwb (s : State) (m : Fin 4) (x : Marker) : (s.putMarker m x).cwb = s.cwb := rfl
@[simp] theorem State.putMarker_startKind (s : State) (m : Fin 4) (x : Marker) : (s.putMarker m x).startKind = s.startKind := rfl
@[simp] theorem State.putMarker_linkOpen (s : State) (m : Fin 4) (x : Marker) : (s.putMarker m x).linkOpen = s.linkOpen := rfl
@[simp] theorem State.putMarker_startupFaults (s : State) (m : Fin 4) (x : Marker) : (s.putMarker m x).startupFaults = s.startupFaults := rfl
@[simp] theorem State.putMarker_now (s : State) (m : Fin 4) (x : Marker) : (s.putMarker m x).now = s.now := rfl
@[simp] theorem State.putMarker_presented (s : State) (m : Fin 4) (x : Marker) : (s.putMarker m x).presented = s.presented := rfl
@[simp] theorem State.putMarker_waiting (s : State) (m : Fin 4) (x : Marker) : (s.putMarker m x).waiting = s.waiting := rfl
@[simp] theorem State.putMarker_nextId (s : State) (m : Fin 4) (x : Marker) : (s.putMarker m x).nextId = s.nextId := rfl
@[simp] theorem State.putMarker_outstanding (s : State) (m : Fin 4) (x : Marker) : (s.putMarker m x).outstanding = s.outstanding := rfl
@[simp] theorem State.putMarker_parks (s : State) (m : Fin 4) (x : Marker) : (s.putMarker m x).parks = s.parks := rfl
@[simp] theorem State.putMarker_returned (s : State) (m : Fin 4) (x : Marker) : (s.putMarker m x).returned = s.returned := rfl
@[simp] theorem State.putMarker_stream (s : State) (m : Fin 4) (x : Marker) : (s.putMarker m x).stream = s.stream := rfl
@[simp] theorem State.putMarker_ownQueue (s : State) (m : Fin 4) (x : Marker) : (s.putMarker m x).ownQueue = s.ownQueue := rfl
@[simp] theorem State.putMarker_offered (s : State) (m : Fin 4) (x : Marker) : (s.putMarker m x).offered = s.offered := rfl
@[simp] theorem State.putMarker_inFlight (s : State) (m : Fin 4) (x : Marker) : (s.putMarker m x).inFlight = s.inFlight := rfl
@[simp] theorem State.putMarker_inFlightOwn (s : State) (m : Fin 4) (x : Marker) : (s.putMarker m x).inFlightOwn = s.inFlightOwn := rfl
@[simp] theorem State.putMarker_rate (s : State) (m : Fin 4) (x : Marker) : (s.putMarker m x).rate = s.rate := rfl
@[simp] theorem State.putMarker_pendingRate (s : State) (m : Fin 4) (x : Marker) : (s.putMarker m x).pendingRate = s.pendingRate := rfl
@[simp] theorem State.putMarker_pc (s : State) (m : Fin 4) (x : Marker) : (s.putMarker m x).pc = s.pc := rfl
@[simp] theorem State.putMarker_phase (s : State) (m : Fin 4) (x : Marker) : (s.putMarker m x).phase = s.phase := rfl
@[simp] theorem State.putMarker_preset (s : State) (m : Fin 4) (x : Marker) : (s.putMarker m x).preset = s.preset := rfl
@[simp] theorem State.putMarker_jamMode (s : State) (m : Fin 4) (x : Marker) : (s.putMarker m x).jamMode = s.jamMode := rfl
@[simp] theorem State.putMarker_jamLength (s : State) (m : Fin 4) (x : Marker) : (s.putMarker m x).jamLength = s.jamLength := rfl
@[simp] theorem State.putMarker_jamRun (s : State) (m : Fin 4) (x : Marker) : (s.putMarker m x).jamRun = s.jamRun := rfl
@[simp] theorem State.putMarker_deferral (s : State) (m : Fin 4) (x : Marker) : (s.putMarker m x).deferral = s.deferral := rfl
@[simp] theorem State.putMarker_fpo (s : State) (m : Fin 4) (x : Marker) : (s.putMarker m x).fpo = s.fpo := rfl
@[simp] theorem State.putMarker_lock (s : State) (m : Fin 4) (x : Marker) : (s.putMarker m x).lock = s.lock := rfl
@[simp] theorem State.putMarker_refEnable (s : State) (m : Fin 4) (x : Marker) : (s.putMarker m x).refEnable = s.refEnable := rfl
@[simp] theorem State.putMarker_ref (s : State) (m : Fin 4) (x : Marker) : (s.putMarker m x).ref = s.ref := rfl
@[simp] theorem State.putMarker_pendingRef (s : State) (m : Fin 4) (x : Marker) : (s.putMarker m x).pendingRef = s.pendingRef := rfl
@[simp] theorem State.putMarker_attempts (s : State) (m : Fin 4) (x : Marker) : (s.putMarker m x).attempts = s.attempts := rfl
@[simp] theorem State.putMarker_acqRun (s : State) (m : Fin 4) (x : Marker) : (s.putMarker m x).acqRun = s.acqRun := rfl
@[simp] theorem State.putMarker_holdMark (s : State) (m : Fin 4) (x : Marker) : (s.putMarker m x).holdMark = s.holdMark := rfl
@[simp] theorem State.putMarker_lastUsed (s : State) (m : Fin 4) (x : Marker) : (s.putMarker m x).lastUsed = s.lastUsed := rfl
@[simp] theorem State.putMarker_usedNext (s : State) (m : Fin 4) (x : Marker) : (s.putMarker m x).usedNext = s.usedNext := rfl
@[simp] theorem State.putMarker_scheduled (s : State) (m : Fin 4) (x : Marker) : (s.putMarker m x).scheduled = s.scheduled := rfl
@[simp] theorem State.putMarker_excursion (s : State) (m : Fin 4) (x : Marker) : (s.putMarker m x).excursion = s.excursion := rfl
@[simp] theorem State.putMarker_strict (s : State) (m : Fin 4) (x : Marker) : (s.putMarker m x).strict = s.strict := rfl
@[simp] theorem State.putMarker_holdCount (s : State) (m : Fin 4) (x : Marker) : (s.putMarker m x).holdCount = s.holdCount := rfl
@[simp] theorem State.putMarker_sources (s : State) (m : Fin 4) (x : Marker) : (s.putMarker m x).sources = s.sources := rfl
@[simp] theorem State.putMarker_indexRing (s : State) (m : Fin 4) (x : Marker) : (s.putMarker m x).indexRing = s.indexRing := rfl
@[simp] theorem State.putMarker_indexSeq (s : State) (m : Fin 4) (x : Marker) : (s.putMarker m x).indexSeq = s.indexSeq := rfl
@[simp] theorem State.putMarker_claps (s : State) (m : Fin 4) (x : Marker) : (s.putMarker m x).claps = s.claps := rfl
@[simp] theorem State.putMarker_groups (s : State) (m : Fin 4) (x : Marker) : (s.putMarker m x).groups = s.groups := rfl
@[simp] theorem State.putMarker_markers (s : State) (m : Fin 4) (x : Marker) : (s.putMarker m x).markers = s.markers.set m x := rfl
@[simp] theorem State.putMarker_windows (s : State) (m : Fin 4) (x : Marker) : (s.putMarker m x).windows = s.windows := rfl
@[simp] theorem State.putMarker_held (s : State) (m : Fin 4) (x : Marker) : (s.putMarker m x).held = s.held := rfl
@[simp] theorem State.putMarker_redirects (s : State) (m : Fin 4) (x : Marker) : (s.putMarker m x).redirects = s.redirects := rfl
@[simp] theorem State.putMarker_inbox (s : State) (m : Fin 4) (x : Marker) : (s.putMarker m x).inbox = s.inbox := rfl
@[simp] theorem State.putMarker_settings (s : State) (m : Fin 4) (x : Marker) : (s.putMarker m x).settings = s.settings := rfl
@[simp] theorem State.putMarker_slots (s : State) (m : Fin 4) (x : Marker) : (s.putMarker m x).slots = s.slots := rfl
@[simp] theorem State.putMarker_drain (s : State) (m : Fin 4) (x : Marker) : (s.putMarker m x).drain = s.drain := rfl
@[simp] theorem State.putMarker_producer (s : State) (m : Fin 4) (x : Marker) : (s.putMarker m x).producer = s.producer := rfl
@[simp] theorem State.putMarker_consumer (s : State) (m : Fin 4) (x : Marker) : (s.putMarker m x).consumer = s.consumer := rfl
@[simp] theorem State.putMarker_eventFlags (s : State) (m : Fin 4) (x : Marker) : (s.putMarker m x).eventFlags = s.eventFlags := rfl
@[simp] theorem State.putMarker_dirty (s : State) (m : Fin 4) (x : Marker) : (s.putMarker m x).dirty = s.dirty := rfl
@[simp] theorem State.putMarker_orders (s : State) (m : Fin 4) (x : Marker) : (s.putMarker m x).orders = s.orders := rfl

/-! #### putWindow -/

@[simp] theorem State.putWindow_pending (s : State) (w : Fin 8) (x : Option Window) : (s.putWindow w x).pending = s.pending := rfl
@[simp] theorem State.putWindow_rstn (s : State) (w : Fin 8) (x : Option Window) : (s.putWindow w x).rstn = s.rstn := rfl
@[simp] theorem State.putWindow_cwb (s : State) (w : Fin 8) (x : Option Window) : (s.putWindow w x).cwb = s.cwb := rfl
@[simp] theorem State.putWindow_startKind (s : State) (w : Fin 8) (x : Option Window) : (s.putWindow w x).startKind = s.startKind := rfl
@[simp] theorem State.putWindow_linkOpen (s : State) (w : Fin 8) (x : Option Window) : (s.putWindow w x).linkOpen = s.linkOpen := rfl
@[simp] theorem State.putWindow_startupFaults (s : State) (w : Fin 8) (x : Option Window) : (s.putWindow w x).startupFaults = s.startupFaults := rfl
@[simp] theorem State.putWindow_now (s : State) (w : Fin 8) (x : Option Window) : (s.putWindow w x).now = s.now := rfl
@[simp] theorem State.putWindow_presented (s : State) (w : Fin 8) (x : Option Window) : (s.putWindow w x).presented = s.presented := rfl
@[simp] theorem State.putWindow_waiting (s : State) (w : Fin 8) (x : Option Window) : (s.putWindow w x).waiting = s.waiting := rfl
@[simp] theorem State.putWindow_nextId (s : State) (w : Fin 8) (x : Option Window) : (s.putWindow w x).nextId = s.nextId := rfl
@[simp] theorem State.putWindow_outstanding (s : State) (w : Fin 8) (x : Option Window) : (s.putWindow w x).outstanding = s.outstanding := rfl
@[simp] theorem State.putWindow_parks (s : State) (w : Fin 8) (x : Option Window) : (s.putWindow w x).parks = s.parks := rfl
@[simp] theorem State.putWindow_returned (s : State) (w : Fin 8) (x : Option Window) : (s.putWindow w x).returned = s.returned := rfl
@[simp] theorem State.putWindow_stream (s : State) (w : Fin 8) (x : Option Window) : (s.putWindow w x).stream = s.stream := rfl
@[simp] theorem State.putWindow_ownQueue (s : State) (w : Fin 8) (x : Option Window) : (s.putWindow w x).ownQueue = s.ownQueue := rfl
@[simp] theorem State.putWindow_offered (s : State) (w : Fin 8) (x : Option Window) : (s.putWindow w x).offered = s.offered := rfl
@[simp] theorem State.putWindow_inFlight (s : State) (w : Fin 8) (x : Option Window) : (s.putWindow w x).inFlight = s.inFlight := rfl
@[simp] theorem State.putWindow_inFlightOwn (s : State) (w : Fin 8) (x : Option Window) : (s.putWindow w x).inFlightOwn = s.inFlightOwn := rfl
@[simp] theorem State.putWindow_rate (s : State) (w : Fin 8) (x : Option Window) : (s.putWindow w x).rate = s.rate := rfl
@[simp] theorem State.putWindow_pendingRate (s : State) (w : Fin 8) (x : Option Window) : (s.putWindow w x).pendingRate = s.pendingRate := rfl
@[simp] theorem State.putWindow_pc (s : State) (w : Fin 8) (x : Option Window) : (s.putWindow w x).pc = s.pc := rfl
@[simp] theorem State.putWindow_phase (s : State) (w : Fin 8) (x : Option Window) : (s.putWindow w x).phase = s.phase := rfl
@[simp] theorem State.putWindow_preset (s : State) (w : Fin 8) (x : Option Window) : (s.putWindow w x).preset = s.preset := rfl
@[simp] theorem State.putWindow_jamMode (s : State) (w : Fin 8) (x : Option Window) : (s.putWindow w x).jamMode = s.jamMode := rfl
@[simp] theorem State.putWindow_jamLength (s : State) (w : Fin 8) (x : Option Window) : (s.putWindow w x).jamLength = s.jamLength := rfl
@[simp] theorem State.putWindow_jamRun (s : State) (w : Fin 8) (x : Option Window) : (s.putWindow w x).jamRun = s.jamRun := rfl
@[simp] theorem State.putWindow_deferral (s : State) (w : Fin 8) (x : Option Window) : (s.putWindow w x).deferral = s.deferral := rfl
@[simp] theorem State.putWindow_fpo (s : State) (w : Fin 8) (x : Option Window) : (s.putWindow w x).fpo = s.fpo := rfl
@[simp] theorem State.putWindow_lock (s : State) (w : Fin 8) (x : Option Window) : (s.putWindow w x).lock = s.lock := rfl
@[simp] theorem State.putWindow_refEnable (s : State) (w : Fin 8) (x : Option Window) : (s.putWindow w x).refEnable = s.refEnable := rfl
@[simp] theorem State.putWindow_ref (s : State) (w : Fin 8) (x : Option Window) : (s.putWindow w x).ref = s.ref := rfl
@[simp] theorem State.putWindow_pendingRef (s : State) (w : Fin 8) (x : Option Window) : (s.putWindow w x).pendingRef = s.pendingRef := rfl
@[simp] theorem State.putWindow_attempts (s : State) (w : Fin 8) (x : Option Window) : (s.putWindow w x).attempts = s.attempts := rfl
@[simp] theorem State.putWindow_acqRun (s : State) (w : Fin 8) (x : Option Window) : (s.putWindow w x).acqRun = s.acqRun := rfl
@[simp] theorem State.putWindow_holdMark (s : State) (w : Fin 8) (x : Option Window) : (s.putWindow w x).holdMark = s.holdMark := rfl
@[simp] theorem State.putWindow_lastUsed (s : State) (w : Fin 8) (x : Option Window) : (s.putWindow w x).lastUsed = s.lastUsed := rfl
@[simp] theorem State.putWindow_usedNext (s : State) (w : Fin 8) (x : Option Window) : (s.putWindow w x).usedNext = s.usedNext := rfl
@[simp] theorem State.putWindow_scheduled (s : State) (w : Fin 8) (x : Option Window) : (s.putWindow w x).scheduled = s.scheduled := rfl
@[simp] theorem State.putWindow_excursion (s : State) (w : Fin 8) (x : Option Window) : (s.putWindow w x).excursion = s.excursion := rfl
@[simp] theorem State.putWindow_strict (s : State) (w : Fin 8) (x : Option Window) : (s.putWindow w x).strict = s.strict := rfl
@[simp] theorem State.putWindow_holdCount (s : State) (w : Fin 8) (x : Option Window) : (s.putWindow w x).holdCount = s.holdCount := rfl
@[simp] theorem State.putWindow_sources (s : State) (w : Fin 8) (x : Option Window) : (s.putWindow w x).sources = s.sources := rfl
@[simp] theorem State.putWindow_indexRing (s : State) (w : Fin 8) (x : Option Window) : (s.putWindow w x).indexRing = s.indexRing := rfl
@[simp] theorem State.putWindow_indexSeq (s : State) (w : Fin 8) (x : Option Window) : (s.putWindow w x).indexSeq = s.indexSeq := rfl
@[simp] theorem State.putWindow_claps (s : State) (w : Fin 8) (x : Option Window) : (s.putWindow w x).claps = s.claps := rfl
@[simp] theorem State.putWindow_groups (s : State) (w : Fin 8) (x : Option Window) : (s.putWindow w x).groups = s.groups := rfl
@[simp] theorem State.putWindow_markers (s : State) (w : Fin 8) (x : Option Window) : (s.putWindow w x).markers = s.markers := rfl
@[simp] theorem State.putWindow_windows (s : State) (w : Fin 8) (x : Option Window) : (s.putWindow w x).windows = s.windows.set w x := rfl
@[simp] theorem State.putWindow_held (s : State) (w : Fin 8) (x : Option Window) : (s.putWindow w x).held = s.held := rfl
@[simp] theorem State.putWindow_redirects (s : State) (w : Fin 8) (x : Option Window) : (s.putWindow w x).redirects = s.redirects := rfl
@[simp] theorem State.putWindow_inbox (s : State) (w : Fin 8) (x : Option Window) : (s.putWindow w x).inbox = s.inbox := rfl
@[simp] theorem State.putWindow_settings (s : State) (w : Fin 8) (x : Option Window) : (s.putWindow w x).settings = s.settings := rfl
@[simp] theorem State.putWindow_slots (s : State) (w : Fin 8) (x : Option Window) : (s.putWindow w x).slots = s.slots := rfl
@[simp] theorem State.putWindow_drain (s : State) (w : Fin 8) (x : Option Window) : (s.putWindow w x).drain = s.drain := rfl
@[simp] theorem State.putWindow_producer (s : State) (w : Fin 8) (x : Option Window) : (s.putWindow w x).producer = s.producer := rfl
@[simp] theorem State.putWindow_consumer (s : State) (w : Fin 8) (x : Option Window) : (s.putWindow w x).consumer = s.consumer := rfl
@[simp] theorem State.putWindow_eventFlags (s : State) (w : Fin 8) (x : Option Window) : (s.putWindow w x).eventFlags = s.eventFlags := rfl
@[simp] theorem State.putWindow_dirty (s : State) (w : Fin 8) (x : Option Window) : (s.putWindow w x).dirty = s.dirty := rfl
@[simp] theorem State.putWindow_orders (s : State) (w : Fin 8) (x : Option Window) : (s.putWindow w x).orders = s.orders := rfl

/-! #### putSlot -/

@[simp] theorem State.putSlot_pending (s : State) (n : Fin 32) (i : Nat) (y : Slot) : (s.putSlot n i y).pending = s.pending := rfl
@[simp] theorem State.putSlot_rstn (s : State) (n : Fin 32) (i : Nat) (y : Slot) : (s.putSlot n i y).rstn = s.rstn := rfl
@[simp] theorem State.putSlot_cwb (s : State) (n : Fin 32) (i : Nat) (y : Slot) : (s.putSlot n i y).cwb = s.cwb := rfl
@[simp] theorem State.putSlot_startKind (s : State) (n : Fin 32) (i : Nat) (y : Slot) : (s.putSlot n i y).startKind = s.startKind := rfl
@[simp] theorem State.putSlot_linkOpen (s : State) (n : Fin 32) (i : Nat) (y : Slot) : (s.putSlot n i y).linkOpen = s.linkOpen := rfl
@[simp] theorem State.putSlot_startupFaults (s : State) (n : Fin 32) (i : Nat) (y : Slot) : (s.putSlot n i y).startupFaults = s.startupFaults := rfl
@[simp] theorem State.putSlot_now (s : State) (n : Fin 32) (i : Nat) (y : Slot) : (s.putSlot n i y).now = s.now := rfl
@[simp] theorem State.putSlot_presented (s : State) (n : Fin 32) (i : Nat) (y : Slot) : (s.putSlot n i y).presented = s.presented := rfl
@[simp] theorem State.putSlot_waiting (s : State) (n : Fin 32) (i : Nat) (y : Slot) : (s.putSlot n i y).waiting = s.waiting := rfl
@[simp] theorem State.putSlot_nextId (s : State) (n : Fin 32) (i : Nat) (y : Slot) : (s.putSlot n i y).nextId = s.nextId := rfl
@[simp] theorem State.putSlot_outstanding (s : State) (n : Fin 32) (i : Nat) (y : Slot) : (s.putSlot n i y).outstanding = s.outstanding := rfl
@[simp] theorem State.putSlot_parks (s : State) (n : Fin 32) (i : Nat) (y : Slot) : (s.putSlot n i y).parks = s.parks := rfl
@[simp] theorem State.putSlot_returned (s : State) (n : Fin 32) (i : Nat) (y : Slot) : (s.putSlot n i y).returned = s.returned := rfl
@[simp] theorem State.putSlot_stream (s : State) (n : Fin 32) (i : Nat) (y : Slot) : (s.putSlot n i y).stream = s.stream := rfl
@[simp] theorem State.putSlot_ownQueue (s : State) (n : Fin 32) (i : Nat) (y : Slot) : (s.putSlot n i y).ownQueue = s.ownQueue := rfl
@[simp] theorem State.putSlot_offered (s : State) (n : Fin 32) (i : Nat) (y : Slot) : (s.putSlot n i y).offered = s.offered := rfl
@[simp] theorem State.putSlot_inFlight (s : State) (n : Fin 32) (i : Nat) (y : Slot) : (s.putSlot n i y).inFlight = s.inFlight := rfl
@[simp] theorem State.putSlot_inFlightOwn (s : State) (n : Fin 32) (i : Nat) (y : Slot) : (s.putSlot n i y).inFlightOwn = s.inFlightOwn := rfl
@[simp] theorem State.putSlot_rate (s : State) (n : Fin 32) (i : Nat) (y : Slot) : (s.putSlot n i y).rate = s.rate := rfl
@[simp] theorem State.putSlot_pendingRate (s : State) (n : Fin 32) (i : Nat) (y : Slot) : (s.putSlot n i y).pendingRate = s.pendingRate := rfl
@[simp] theorem State.putSlot_pc (s : State) (n : Fin 32) (i : Nat) (y : Slot) : (s.putSlot n i y).pc = s.pc := rfl
@[simp] theorem State.putSlot_phase (s : State) (n : Fin 32) (i : Nat) (y : Slot) : (s.putSlot n i y).phase = s.phase := rfl
@[simp] theorem State.putSlot_preset (s : State) (n : Fin 32) (i : Nat) (y : Slot) : (s.putSlot n i y).preset = s.preset := rfl
@[simp] theorem State.putSlot_jamMode (s : State) (n : Fin 32) (i : Nat) (y : Slot) : (s.putSlot n i y).jamMode = s.jamMode := rfl
@[simp] theorem State.putSlot_jamLength (s : State) (n : Fin 32) (i : Nat) (y : Slot) : (s.putSlot n i y).jamLength = s.jamLength := rfl
@[simp] theorem State.putSlot_jamRun (s : State) (n : Fin 32) (i : Nat) (y : Slot) : (s.putSlot n i y).jamRun = s.jamRun := rfl
@[simp] theorem State.putSlot_deferral (s : State) (n : Fin 32) (i : Nat) (y : Slot) : (s.putSlot n i y).deferral = s.deferral := rfl
@[simp] theorem State.putSlot_fpo (s : State) (n : Fin 32) (i : Nat) (y : Slot) : (s.putSlot n i y).fpo = s.fpo := rfl
@[simp] theorem State.putSlot_lock (s : State) (n : Fin 32) (i : Nat) (y : Slot) : (s.putSlot n i y).lock = s.lock := rfl
@[simp] theorem State.putSlot_refEnable (s : State) (n : Fin 32) (i : Nat) (y : Slot) : (s.putSlot n i y).refEnable = s.refEnable := rfl
@[simp] theorem State.putSlot_ref (s : State) (n : Fin 32) (i : Nat) (y : Slot) : (s.putSlot n i y).ref = s.ref := rfl
@[simp] theorem State.putSlot_pendingRef (s : State) (n : Fin 32) (i : Nat) (y : Slot) : (s.putSlot n i y).pendingRef = s.pendingRef := rfl
@[simp] theorem State.putSlot_attempts (s : State) (n : Fin 32) (i : Nat) (y : Slot) : (s.putSlot n i y).attempts = s.attempts := rfl
@[simp] theorem State.putSlot_acqRun (s : State) (n : Fin 32) (i : Nat) (y : Slot) : (s.putSlot n i y).acqRun = s.acqRun := rfl
@[simp] theorem State.putSlot_holdMark (s : State) (n : Fin 32) (i : Nat) (y : Slot) : (s.putSlot n i y).holdMark = s.holdMark := rfl
@[simp] theorem State.putSlot_lastUsed (s : State) (n : Fin 32) (i : Nat) (y : Slot) : (s.putSlot n i y).lastUsed = s.lastUsed := rfl
@[simp] theorem State.putSlot_usedNext (s : State) (n : Fin 32) (i : Nat) (y : Slot) : (s.putSlot n i y).usedNext = s.usedNext := rfl
@[simp] theorem State.putSlot_scheduled (s : State) (n : Fin 32) (i : Nat) (y : Slot) : (s.putSlot n i y).scheduled = s.scheduled := rfl
@[simp] theorem State.putSlot_excursion (s : State) (n : Fin 32) (i : Nat) (y : Slot) : (s.putSlot n i y).excursion = s.excursion := rfl
@[simp] theorem State.putSlot_strict (s : State) (n : Fin 32) (i : Nat) (y : Slot) : (s.putSlot n i y).strict = s.strict := rfl
@[simp] theorem State.putSlot_holdCount (s : State) (n : Fin 32) (i : Nat) (y : Slot) : (s.putSlot n i y).holdCount = s.holdCount := rfl
@[simp] theorem State.putSlot_sources (s : State) (n : Fin 32) (i : Nat) (y : Slot) : (s.putSlot n i y).sources = s.sources.set n (s.sources[n].withSlot i y) := rfl
@[simp] theorem State.putSlot_indexRing (s : State) (n : Fin 32) (i : Nat) (y : Slot) : (s.putSlot n i y).indexRing = s.indexRing := rfl
@[simp] theorem State.putSlot_indexSeq (s : State) (n : Fin 32) (i : Nat) (y : Slot) : (s.putSlot n i y).indexSeq = s.indexSeq := rfl
@[simp] theorem State.putSlot_claps (s : State) (n : Fin 32) (i : Nat) (y : Slot) : (s.putSlot n i y).claps = s.claps := rfl
@[simp] theorem State.putSlot_groups (s : State) (n : Fin 32) (i : Nat) (y : Slot) : (s.putSlot n i y).groups = s.groups := rfl
@[simp] theorem State.putSlot_markers (s : State) (n : Fin 32) (i : Nat) (y : Slot) : (s.putSlot n i y).markers = s.markers := rfl
@[simp] theorem State.putSlot_windows (s : State) (n : Fin 32) (i : Nat) (y : Slot) : (s.putSlot n i y).windows = s.windows := rfl
@[simp] theorem State.putSlot_held (s : State) (n : Fin 32) (i : Nat) (y : Slot) : (s.putSlot n i y).held = s.held := rfl
@[simp] theorem State.putSlot_redirects (s : State) (n : Fin 32) (i : Nat) (y : Slot) : (s.putSlot n i y).redirects = s.redirects := rfl
@[simp] theorem State.putSlot_inbox (s : State) (n : Fin 32) (i : Nat) (y : Slot) : (s.putSlot n i y).inbox = s.inbox := rfl
@[simp] theorem State.putSlot_settings (s : State) (n : Fin 32) (i : Nat) (y : Slot) : (s.putSlot n i y).settings = s.settings := rfl
@[simp] theorem State.putSlot_slots (s : State) (n : Fin 32) (i : Nat) (y : Slot) : (s.putSlot n i y).slots = s.slots := rfl
@[simp] theorem State.putSlot_drain (s : State) (n : Fin 32) (i : Nat) (y : Slot) : (s.putSlot n i y).drain = s.drain := rfl
@[simp] theorem State.putSlot_producer (s : State) (n : Fin 32) (i : Nat) (y : Slot) : (s.putSlot n i y).producer = s.producer := rfl
@[simp] theorem State.putSlot_consumer (s : State) (n : Fin 32) (i : Nat) (y : Slot) : (s.putSlot n i y).consumer = s.consumer := rfl
@[simp] theorem State.putSlot_eventFlags (s : State) (n : Fin 32) (i : Nat) (y : Slot) : (s.putSlot n i y).eventFlags = s.eventFlags := rfl
@[simp] theorem State.putSlot_dirty (s : State) (n : Fin 32) (i : Nat) (y : Slot) : (s.putSlot n i y).dirty = s.dirty := rfl
@[simp] theorem State.putSlot_orders (s : State) (n : Fin 32) (i : Nat) (y : Slot) : (s.putSlot n i y).orders = s.orders := rfl

/-! #### park -/

@[simp] theorem State.park_pending (s : State) (i : Fin 64) (q : Nat) : (s.park i q).pending = s.pending := rfl
@[simp] theorem State.park_rstn (s : State) (i : Fin 64) (q : Nat) : (s.park i q).rstn = s.rstn := rfl
@[simp] theorem State.park_cwb (s : State) (i : Fin 64) (q : Nat) : (s.park i q).cwb = s.cwb := rfl
@[simp] theorem State.park_startKind (s : State) (i : Fin 64) (q : Nat) : (s.park i q).startKind = s.startKind := rfl
@[simp] theorem State.park_linkOpen (s : State) (i : Fin 64) (q : Nat) : (s.park i q).linkOpen = s.linkOpen := rfl
@[simp] theorem State.park_startupFaults (s : State) (i : Fin 64) (q : Nat) : (s.park i q).startupFaults = s.startupFaults := rfl
@[simp] theorem State.park_now (s : State) (i : Fin 64) (q : Nat) : (s.park i q).now = s.now := rfl
@[simp] theorem State.park_presented (s : State) (i : Fin 64) (q : Nat) : (s.park i q).presented = s.presented := rfl
@[simp] theorem State.park_waiting (s : State) (i : Fin 64) (q : Nat) : (s.park i q).waiting = s.waiting := rfl
@[simp] theorem State.park_nextId (s : State) (i : Fin 64) (q : Nat) : (s.park i q).nextId = s.nextId := rfl
@[simp] theorem State.park_outstanding (s : State) (i : Fin 64) (q : Nat) : (s.park i q).outstanding = s.outstanding := rfl
@[simp] theorem State.park_parks (s : State) (i : Fin 64) (q : Nat) : (s.park i q).parks = s.parks.set i (some q) := rfl
@[simp] theorem State.park_returned (s : State) (i : Fin 64) (q : Nat) : (s.park i q).returned = s.returned := rfl
@[simp] theorem State.park_stream (s : State) (i : Fin 64) (q : Nat) : (s.park i q).stream = s.stream := rfl
@[simp] theorem State.park_ownQueue (s : State) (i : Fin 64) (q : Nat) : (s.park i q).ownQueue = s.ownQueue := rfl
@[simp] theorem State.park_offered (s : State) (i : Fin 64) (q : Nat) : (s.park i q).offered = s.offered := rfl
@[simp] theorem State.park_inFlight (s : State) (i : Fin 64) (q : Nat) : (s.park i q).inFlight = s.inFlight := rfl
@[simp] theorem State.park_inFlightOwn (s : State) (i : Fin 64) (q : Nat) : (s.park i q).inFlightOwn = s.inFlightOwn := rfl
@[simp] theorem State.park_rate (s : State) (i : Fin 64) (q : Nat) : (s.park i q).rate = s.rate := rfl
@[simp] theorem State.park_pendingRate (s : State) (i : Fin 64) (q : Nat) : (s.park i q).pendingRate = s.pendingRate := rfl
@[simp] theorem State.park_pc (s : State) (i : Fin 64) (q : Nat) : (s.park i q).pc = s.pc := rfl
@[simp] theorem State.park_phase (s : State) (i : Fin 64) (q : Nat) : (s.park i q).phase = s.phase := rfl
@[simp] theorem State.park_preset (s : State) (i : Fin 64) (q : Nat) : (s.park i q).preset = s.preset := rfl
@[simp] theorem State.park_jamMode (s : State) (i : Fin 64) (q : Nat) : (s.park i q).jamMode = s.jamMode := rfl
@[simp] theorem State.park_jamLength (s : State) (i : Fin 64) (q : Nat) : (s.park i q).jamLength = s.jamLength := rfl
@[simp] theorem State.park_jamRun (s : State) (i : Fin 64) (q : Nat) : (s.park i q).jamRun = s.jamRun := rfl
@[simp] theorem State.park_deferral (s : State) (i : Fin 64) (q : Nat) : (s.park i q).deferral = s.deferral := rfl
@[simp] theorem State.park_fpo (s : State) (i : Fin 64) (q : Nat) : (s.park i q).fpo = s.fpo := rfl
@[simp] theorem State.park_lock (s : State) (i : Fin 64) (q : Nat) : (s.park i q).lock = s.lock := rfl
@[simp] theorem State.park_refEnable (s : State) (i : Fin 64) (q : Nat) : (s.park i q).refEnable = s.refEnable := rfl
@[simp] theorem State.park_ref (s : State) (i : Fin 64) (q : Nat) : (s.park i q).ref = s.ref := rfl
@[simp] theorem State.park_pendingRef (s : State) (i : Fin 64) (q : Nat) : (s.park i q).pendingRef = s.pendingRef := rfl
@[simp] theorem State.park_attempts (s : State) (i : Fin 64) (q : Nat) : (s.park i q).attempts = s.attempts := rfl
@[simp] theorem State.park_acqRun (s : State) (i : Fin 64) (q : Nat) : (s.park i q).acqRun = s.acqRun := rfl
@[simp] theorem State.park_holdMark (s : State) (i : Fin 64) (q : Nat) : (s.park i q).holdMark = s.holdMark := rfl
@[simp] theorem State.park_lastUsed (s : State) (i : Fin 64) (q : Nat) : (s.park i q).lastUsed = s.lastUsed := rfl
@[simp] theorem State.park_usedNext (s : State) (i : Fin 64) (q : Nat) : (s.park i q).usedNext = s.usedNext := rfl
@[simp] theorem State.park_scheduled (s : State) (i : Fin 64) (q : Nat) : (s.park i q).scheduled = s.scheduled := rfl
@[simp] theorem State.park_excursion (s : State) (i : Fin 64) (q : Nat) : (s.park i q).excursion = s.excursion := rfl
@[simp] theorem State.park_strict (s : State) (i : Fin 64) (q : Nat) : (s.park i q).strict = s.strict := rfl
@[simp] theorem State.park_holdCount (s : State) (i : Fin 64) (q : Nat) : (s.park i q).holdCount = s.holdCount := rfl
@[simp] theorem State.park_sources (s : State) (i : Fin 64) (q : Nat) : (s.park i q).sources = s.sources := rfl
@[simp] theorem State.park_indexRing (s : State) (i : Fin 64) (q : Nat) : (s.park i q).indexRing = s.indexRing := rfl
@[simp] theorem State.park_indexSeq (s : State) (i : Fin 64) (q : Nat) : (s.park i q).indexSeq = s.indexSeq := rfl
@[simp] theorem State.park_claps (s : State) (i : Fin 64) (q : Nat) : (s.park i q).claps = s.claps := rfl
@[simp] theorem State.park_groups (s : State) (i : Fin 64) (q : Nat) : (s.park i q).groups = s.groups := rfl
@[simp] theorem State.park_markers (s : State) (i : Fin 64) (q : Nat) : (s.park i q).markers = s.markers := rfl
@[simp] theorem State.park_windows (s : State) (i : Fin 64) (q : Nat) : (s.park i q).windows = s.windows := rfl
@[simp] theorem State.park_held (s : State) (i : Fin 64) (q : Nat) : (s.park i q).held = s.held := rfl
@[simp] theorem State.park_redirects (s : State) (i : Fin 64) (q : Nat) : (s.park i q).redirects = s.redirects := rfl
@[simp] theorem State.park_inbox (s : State) (i : Fin 64) (q : Nat) : (s.park i q).inbox = s.inbox := rfl
@[simp] theorem State.park_settings (s : State) (i : Fin 64) (q : Nat) : (s.park i q).settings = s.settings := rfl
@[simp] theorem State.park_slots (s : State) (i : Fin 64) (q : Nat) : (s.park i q).slots = s.slots := rfl
@[simp] theorem State.park_drain (s : State) (i : Fin 64) (q : Nat) : (s.park i q).drain = s.drain := rfl
@[simp] theorem State.park_producer (s : State) (i : Fin 64) (q : Nat) : (s.park i q).producer = s.producer := rfl
@[simp] theorem State.park_consumer (s : State) (i : Fin 64) (q : Nat) : (s.park i q).consumer = s.consumer := rfl
@[simp] theorem State.park_eventFlags (s : State) (i : Fin 64) (q : Nat) : (s.park i q).eventFlags = s.eventFlags := rfl
@[simp] theorem State.park_dirty (s : State) (i : Fin 64) (q : Nat) : (s.park i q).dirty = s.dirty := rfl
@[simp] theorem State.park_orders (s : State) (i : Fin 64) (q : Nat) : (s.park i q).orders = s.orders := rfl

/-! #### unpark -/

@[simp] theorem State.unpark_pending (s : State) (i : Fin 64) : (s.unpark i).pending = s.pending := rfl
@[simp] theorem State.unpark_rstn (s : State) (i : Fin 64) : (s.unpark i).rstn = s.rstn := rfl
@[simp] theorem State.unpark_cwb (s : State) (i : Fin 64) : (s.unpark i).cwb = s.cwb := rfl
@[simp] theorem State.unpark_startKind (s : State) (i : Fin 64) : (s.unpark i).startKind = s.startKind := rfl
@[simp] theorem State.unpark_linkOpen (s : State) (i : Fin 64) : (s.unpark i).linkOpen = s.linkOpen := rfl
@[simp] theorem State.unpark_startupFaults (s : State) (i : Fin 64) : (s.unpark i).startupFaults = s.startupFaults := rfl
@[simp] theorem State.unpark_now (s : State) (i : Fin 64) : (s.unpark i).now = s.now := rfl
@[simp] theorem State.unpark_presented (s : State) (i : Fin 64) : (s.unpark i).presented = s.presented := rfl
@[simp] theorem State.unpark_waiting (s : State) (i : Fin 64) : (s.unpark i).waiting = s.waiting := rfl
@[simp] theorem State.unpark_nextId (s : State) (i : Fin 64) : (s.unpark i).nextId = s.nextId := rfl
@[simp] theorem State.unpark_outstanding (s : State) (i : Fin 64) : (s.unpark i).outstanding = s.outstanding := rfl
@[simp] theorem State.unpark_parks (s : State) (i : Fin 64) : (s.unpark i).parks = s.parks.set i none := rfl
@[simp] theorem State.unpark_returned (s : State) (i : Fin 64) : (s.unpark i).returned = s.returned := rfl
@[simp] theorem State.unpark_stream (s : State) (i : Fin 64) : (s.unpark i).stream = s.stream := rfl
@[simp] theorem State.unpark_ownQueue (s : State) (i : Fin 64) : (s.unpark i).ownQueue = s.ownQueue := rfl
@[simp] theorem State.unpark_offered (s : State) (i : Fin 64) : (s.unpark i).offered = s.offered := rfl
@[simp] theorem State.unpark_inFlight (s : State) (i : Fin 64) : (s.unpark i).inFlight = s.inFlight := rfl
@[simp] theorem State.unpark_inFlightOwn (s : State) (i : Fin 64) : (s.unpark i).inFlightOwn = s.inFlightOwn := rfl
@[simp] theorem State.unpark_rate (s : State) (i : Fin 64) : (s.unpark i).rate = s.rate := rfl
@[simp] theorem State.unpark_pendingRate (s : State) (i : Fin 64) : (s.unpark i).pendingRate = s.pendingRate := rfl
@[simp] theorem State.unpark_pc (s : State) (i : Fin 64) : (s.unpark i).pc = s.pc := rfl
@[simp] theorem State.unpark_phase (s : State) (i : Fin 64) : (s.unpark i).phase = s.phase := rfl
@[simp] theorem State.unpark_preset (s : State) (i : Fin 64) : (s.unpark i).preset = s.preset := rfl
@[simp] theorem State.unpark_jamMode (s : State) (i : Fin 64) : (s.unpark i).jamMode = s.jamMode := rfl
@[simp] theorem State.unpark_jamLength (s : State) (i : Fin 64) : (s.unpark i).jamLength = s.jamLength := rfl
@[simp] theorem State.unpark_jamRun (s : State) (i : Fin 64) : (s.unpark i).jamRun = s.jamRun := rfl
@[simp] theorem State.unpark_deferral (s : State) (i : Fin 64) : (s.unpark i).deferral = s.deferral := rfl
@[simp] theorem State.unpark_fpo (s : State) (i : Fin 64) : (s.unpark i).fpo = s.fpo := rfl
@[simp] theorem State.unpark_lock (s : State) (i : Fin 64) : (s.unpark i).lock = s.lock := rfl
@[simp] theorem State.unpark_refEnable (s : State) (i : Fin 64) : (s.unpark i).refEnable = s.refEnable := rfl
@[simp] theorem State.unpark_ref (s : State) (i : Fin 64) : (s.unpark i).ref = s.ref := rfl
@[simp] theorem State.unpark_pendingRef (s : State) (i : Fin 64) : (s.unpark i).pendingRef = s.pendingRef := rfl
@[simp] theorem State.unpark_attempts (s : State) (i : Fin 64) : (s.unpark i).attempts = s.attempts := rfl
@[simp] theorem State.unpark_acqRun (s : State) (i : Fin 64) : (s.unpark i).acqRun = s.acqRun := rfl
@[simp] theorem State.unpark_holdMark (s : State) (i : Fin 64) : (s.unpark i).holdMark = s.holdMark := rfl
@[simp] theorem State.unpark_lastUsed (s : State) (i : Fin 64) : (s.unpark i).lastUsed = s.lastUsed := rfl
@[simp] theorem State.unpark_usedNext (s : State) (i : Fin 64) : (s.unpark i).usedNext = s.usedNext := rfl
@[simp] theorem State.unpark_scheduled (s : State) (i : Fin 64) : (s.unpark i).scheduled = s.scheduled := rfl
@[simp] theorem State.unpark_excursion (s : State) (i : Fin 64) : (s.unpark i).excursion = s.excursion := rfl
@[simp] theorem State.unpark_strict (s : State) (i : Fin 64) : (s.unpark i).strict = s.strict := rfl
@[simp] theorem State.unpark_holdCount (s : State) (i : Fin 64) : (s.unpark i).holdCount = s.holdCount := rfl
@[simp] theorem State.unpark_sources (s : State) (i : Fin 64) : (s.unpark i).sources = s.sources := rfl
@[simp] theorem State.unpark_indexRing (s : State) (i : Fin 64) : (s.unpark i).indexRing = s.indexRing := rfl
@[simp] theorem State.unpark_indexSeq (s : State) (i : Fin 64) : (s.unpark i).indexSeq = s.indexSeq := rfl
@[simp] theorem State.unpark_claps (s : State) (i : Fin 64) : (s.unpark i).claps = s.claps := rfl
@[simp] theorem State.unpark_groups (s : State) (i : Fin 64) : (s.unpark i).groups = s.groups := rfl
@[simp] theorem State.unpark_markers (s : State) (i : Fin 64) : (s.unpark i).markers = s.markers := rfl
@[simp] theorem State.unpark_windows (s : State) (i : Fin 64) : (s.unpark i).windows = s.windows := rfl
@[simp] theorem State.unpark_held (s : State) (i : Fin 64) : (s.unpark i).held = s.held := rfl
@[simp] theorem State.unpark_redirects (s : State) (i : Fin 64) : (s.unpark i).redirects = s.redirects := rfl
@[simp] theorem State.unpark_inbox (s : State) (i : Fin 64) : (s.unpark i).inbox = s.inbox := rfl
@[simp] theorem State.unpark_settings (s : State) (i : Fin 64) : (s.unpark i).settings = s.settings := rfl
@[simp] theorem State.unpark_slots (s : State) (i : Fin 64) : (s.unpark i).slots = s.slots := rfl
@[simp] theorem State.unpark_drain (s : State) (i : Fin 64) : (s.unpark i).drain = s.drain := rfl
@[simp] theorem State.unpark_producer (s : State) (i : Fin 64) : (s.unpark i).producer = s.producer := rfl
@[simp] theorem State.unpark_consumer (s : State) (i : Fin 64) : (s.unpark i).consumer = s.consumer := rfl
@[simp] theorem State.unpark_eventFlags (s : State) (i : Fin 64) : (s.unpark i).eventFlags = s.eventFlags := rfl
@[simp] theorem State.unpark_dirty (s : State) (i : Fin 64) : (s.unpark i).dirty = s.dirty := rfl
@[simp] theorem State.unpark_orders (s : State) (i : Fin 64) : (s.unpark i).orders = s.orders := rfl

/-! #### What reporting leaves as it was -/

theorem State.Reports.pending {s t : State} (h : s.Reports t) : t.pending = s.pending := by rw [h]; rfl
theorem State.Reports.rstn {s t : State} (h : s.Reports t) : t.rstn = s.rstn := by rw [h]; rfl
theorem State.Reports.cwb {s t : State} (h : s.Reports t) : t.cwb = s.cwb := by rw [h]; rfl
theorem State.Reports.startKind {s t : State} (h : s.Reports t) : t.startKind = s.startKind := by rw [h]; rfl
theorem State.Reports.linkOpen {s t : State} (h : s.Reports t) : t.linkOpen = s.linkOpen := by rw [h]; rfl
theorem State.Reports.startupFaults {s t : State} (h : s.Reports t) : t.startupFaults = s.startupFaults := by rw [h]; rfl
theorem State.Reports.now {s t : State} (h : s.Reports t) : t.now = s.now := by rw [h]; rfl
theorem State.Reports.presented {s t : State} (h : s.Reports t) : t.presented = s.presented := by rw [h]; rfl
theorem State.Reports.waiting {s t : State} (h : s.Reports t) : t.waiting = s.waiting := by rw [h]; rfl
theorem State.Reports.nextId {s t : State} (h : s.Reports t) : t.nextId = s.nextId := by rw [h]; rfl
theorem State.Reports.outstanding {s t : State} (h : s.Reports t) : t.outstanding = s.outstanding := by rw [h]; rfl
theorem State.Reports.parks {s t : State} (h : s.Reports t) : t.parks = s.parks := by rw [h]; rfl
theorem State.Reports.returned {s t : State} (h : s.Reports t) : t.returned = s.returned := by rw [h]; rfl
theorem State.Reports.stream {s t : State} (h : s.Reports t) : t.stream = s.stream := by rw [h]; rfl
theorem State.Reports.inFlight {s t : State} (h : s.Reports t) : t.inFlight = s.inFlight := by rw [h]; rfl
theorem State.Reports.inFlightOwn {s t : State} (h : s.Reports t) : t.inFlightOwn = s.inFlightOwn := by rw [h]; rfl
theorem State.Reports.rate {s t : State} (h : s.Reports t) : t.rate = s.rate := by rw [h]; rfl
theorem State.Reports.pendingRate {s t : State} (h : s.Reports t) : t.pendingRate = s.pendingRate := by rw [h]; rfl
theorem State.Reports.pc {s t : State} (h : s.Reports t) : t.pc = s.pc := by rw [h]; rfl
theorem State.Reports.phase {s t : State} (h : s.Reports t) : t.phase = s.phase := by rw [h]; rfl
theorem State.Reports.preset {s t : State} (h : s.Reports t) : t.preset = s.preset := by rw [h]; rfl
theorem State.Reports.jamMode {s t : State} (h : s.Reports t) : t.jamMode = s.jamMode := by rw [h]; rfl
theorem State.Reports.jamLength {s t : State} (h : s.Reports t) : t.jamLength = s.jamLength := by rw [h]; rfl
theorem State.Reports.jamRun {s t : State} (h : s.Reports t) : t.jamRun = s.jamRun := by rw [h]; rfl
theorem State.Reports.deferral {s t : State} (h : s.Reports t) : t.deferral = s.deferral := by rw [h]; rfl
theorem State.Reports.fpo {s t : State} (h : s.Reports t) : t.fpo = s.fpo := by rw [h]; rfl
theorem State.Reports.lock {s t : State} (h : s.Reports t) : t.lock = s.lock := by rw [h]; rfl
theorem State.Reports.refEnable {s t : State} (h : s.Reports t) : t.refEnable = s.refEnable := by rw [h]; rfl
theorem State.Reports.ref {s t : State} (h : s.Reports t) : t.ref = s.ref := by rw [h]; rfl
theorem State.Reports.pendingRef {s t : State} (h : s.Reports t) : t.pendingRef = s.pendingRef := by rw [h]; rfl
theorem State.Reports.attempts {s t : State} (h : s.Reports t) : t.attempts = s.attempts := by rw [h]; rfl
theorem State.Reports.acqRun {s t : State} (h : s.Reports t) : t.acqRun = s.acqRun := by rw [h]; rfl
theorem State.Reports.holdMark {s t : State} (h : s.Reports t) : t.holdMark = s.holdMark := by rw [h]; rfl
theorem State.Reports.lastUsed {s t : State} (h : s.Reports t) : t.lastUsed = s.lastUsed := by rw [h]; rfl
theorem State.Reports.usedNext {s t : State} (h : s.Reports t) : t.usedNext = s.usedNext := by rw [h]; rfl
theorem State.Reports.scheduled {s t : State} (h : s.Reports t) : t.scheduled = s.scheduled := by rw [h]; rfl
theorem State.Reports.excursion {s t : State} (h : s.Reports t) : t.excursion = s.excursion := by rw [h]; rfl
theorem State.Reports.strict {s t : State} (h : s.Reports t) : t.strict = s.strict := by rw [h]; rfl
theorem State.Reports.holdCount {s t : State} (h : s.Reports t) : t.holdCount = s.holdCount := by rw [h]; rfl
theorem State.Reports.sources {s t : State} (h : s.Reports t) : t.sources = s.sources := by rw [h]; rfl
theorem State.Reports.indexRing {s t : State} (h : s.Reports t) : t.indexRing = s.indexRing := by rw [h]; rfl
theorem State.Reports.indexSeq {s t : State} (h : s.Reports t) : t.indexSeq = s.indexSeq := by rw [h]; rfl
theorem State.Reports.claps {s t : State} (h : s.Reports t) : t.claps = s.claps := by rw [h]; rfl
theorem State.Reports.groups {s t : State} (h : s.Reports t) : t.groups = s.groups := by rw [h]; rfl
theorem State.Reports.markers {s t : State} (h : s.Reports t) : t.markers = s.markers := by rw [h]; rfl
theorem State.Reports.windows {s t : State} (h : s.Reports t) : t.windows = s.windows := by rw [h]; rfl
theorem State.Reports.held {s t : State} (h : s.Reports t) : t.held = s.held := by rw [h]; rfl
theorem State.Reports.redirects {s t : State} (h : s.Reports t) : t.redirects = s.redirects := by rw [h]; rfl
theorem State.Reports.inbox {s t : State} (h : s.Reports t) : t.inbox = s.inbox := by rw [h]; rfl
theorem State.Reports.settings {s t : State} (h : s.Reports t) : t.settings = s.settings := by rw [h]; rfl
theorem State.Reports.drain {s t : State} (h : s.Reports t) : t.drain = s.drain := by rw [h]; rfl
theorem State.Reports.consumer {s t : State} (h : s.Reports t) : t.consumer = s.consumer := by rw [h]; rfl

end Sys2Proof.Machine
end

