-- ==== Sys2Proof/Laws/Reporting.lean ====
section
/-! SUPPORT. What each operation of reporting can do: it changes nothing but the fields of `State.reporting`. One lemma
per operation; proofs about commands cite them and do not unfold the operation. -/

namespace Sys2Proof.Machine

theorem State.Reports.refl (s : State) : s.Reports s := rfl

theorem State.Reports.trans {s t u : State} (h : s.Reports t) (k : t.Reports u) : s.Reports u := by
  unfold State.Reports at *
  rw [k, h]
  rfl

/-- A fold of steps each of which only reports only reports. -/
theorem State.Reports.foldl {α : Type} (f : State → α → State) (hf : ∀ (s : State) (a : α), s.Reports (f s a)) :
    ∀ (xs : List α) (s : State), s.Reports (xs.foldl f s)
  | [], s => State.Reports.refl s
  | x :: xs, s => (hf s x).trans (State.Reports.foldl f hf xs (f s x))

theorem State.chooseOrder_reports (s : State) (xs : List Nat) : s.Reports (s.chooseOrder xs).2 := by
  unfold State.chooseOrder
  split
  · rfl
  · split <;> rfl

theorem State.produce_reports (s : State) (k : OwnKind) (a : Nat) (bs : List WriteBeat) : s.Reports (s.produce k a bs) := by
  unfold State.produce
  simp only []
  split
  · rfl
  · split <;> rfl

theorem State.joinOffered_reports (s : State) : s.Reports s.joinOffered := by
  unfold State.joinOffered
  split
  · rfl
  · split <;> rfl

theorem State.produceControl_reports (s : State) (k : OwnKind) (o : Nat) (b : Beat) : s.Reports (s.produceControl k o b) :=
  s.produce_reports _ _ _

theorem State.mark_reports (s : State) (n : Nat) : s.Reports (s.mark n) := by
  unfold State.mark
  split <;> rfl

theorem State.rewrite_reports (s : State) (n : Nat) : s.Reports (s.rewrite n) := by
  unfold State.rewrite
  split
  · exact State.Reports.trans (t := { s with dirty := s.dirty.erase n }) rfl (State.produceControl_reports _ _ _ _)
  · rfl

theorem State.rewriteParts_reports (s : State) (p : Nat → Bool) : s.Reports (s.rewriteParts p) :=
  (s.chooseOrder_reports _).trans (State.Reports.foldl _ State.rewrite_reports _ _)

theorem State.rewriteOwners_reports (s : State) : s.Reports s.rewriteOwners := s.rewriteParts_reports _

theorem State.settle_reports (s : State) : s.Reports s.settle := s.rewriteParts_reports _

theorem State.raise_reports (s : State) (f : EventFlags → EventFlags) : s.Reports (s.raise f) := by
  unfold State.raise
  split
  · rfl
  · exact State.Reports.trans (t := { s with eventFlags := f s.eventFlags }) rfl (State.mark_reports _ _)

theorem State.reportAt_reports (s : State) (pc : Nat) (k : ReportKind) (subject d1 d2 : Nat) :
    s.Reports (s.reportAt pc k subject d1 d2) := by
  have h := s.raise_reports k.raises
  unfold State.reportAt
  simp only []
  split
  · split
    · exact h.trans ((State.Reports.trans
      (t := { s.raise k.raises with producer := (s.raise k.raises).producer + 1 }) rfl
      (State.produceControl_reports _ _ _ _)).trans (State.mark_reports _ _))
    · exact h.trans (State.raise_reports _ _)
  · exact h

theorem State.report_reports (s : State) (k : ReportKind) (subject d1 d2 : Nat) :
    s.Reports (s.report k subject d1 d2) := s.reportAt_reports _ _ _ _ _

theorem State.statusRecord_reports (s : State) (slot : Fin 16) (st res : Nat) (rec : Beat) (c : Bool) (pc r1 r2 : Nat) :
    s.Reports (s.statusRecord slot st res rec c pc r1 r2) := s.produceControl_reports _ _ _

theorem State.completeLeaving_reports (s : State) (flag : Bool) (slot : Fin 16) (rec : Beat) (c : Bool) (code : ResultCode)
    (pc r1 r2 : Nat) : s.Reports (s.completeLeaving flag slot rec c code pc r1 r2) := by
  unfold State.completeLeaving
  exact ((State.Reports.trans (t := { s with slots := s.slots.set slot (CommandSlot.ofResult code) }) rfl
    (State.statusRecord_reports _ _ _ _ _ _ _ _ _)).trans (State.raise_reports _ _)).trans (State.report_reports _ _ _ _ _)

theorem State.complete_reports (s : State) (slot : Fin 16) (rec : Beat) (c : Bool) (code : ResultCode) (pc r1 r2 : Nat) :
    s.Reports (s.complete slot rec c code pc r1 r2) := s.completeLeaving_reports _ _ _ _ _ _ _ _

theorem State.completePending_reports (s : State) (slot : Fin 16) (code : ResultCode) (pc r1 r2 : Nat) :
    s.Reports (s.completePending slot code pc r1 r2) := by
  unfold State.completePending
  split
  · exact s.complete_reports _ _ _ _ _ _ _
  all_goals rfl

theorem State.makePending_reports (s : State) (slot : Fin 16) (rec : Beat) : s.Reports (s.makePending slot rec) :=
  State.Reports.trans (t := { s with slots := s.slots.set slot (.pending rec false) }) rfl
    (State.statusRecord_reports _ _ _ _ _ _ _ _ _)

/-- What follows an owner's answer is reporting. -/
theorem finishCommand_reports (slot : Fin 16) (rec : Beat) (o : Owned) : o.1.Reports (finishCommand slot rec o) := by
  unfold finishCommand
  simp only []
  split
  · exact o.1.rewriteOwners_reports.trans (State.complete_reports _ _ _ _ _ _ _ _)
  · exact o.1.rewriteOwners_reports.trans (State.complete_reports _ _ _ _ _ _ _ _)
  · exact o.1.rewriteOwners_reports.trans (State.makePending_reports _ _ _)

theorem State.takeState_reports (s : State) (g : Fin 8) (a b : GroupState) (n : Nat) (c : TakeCause) (k : Nat) :
    s.Reports (s.takeState g a b n c k) := s.report_reports _ _ _ _

theorem State.sourceState_reports (s : State) (n : Fin 32) (a b : SourceState) (c : SourceCause) :
    s.Reports (s.sourceState n a b c) := (s.report_reports _ _ _ _).trans (State.mark_reports _ _)

theorem State.writeBack_reports (s : State) (n : Fin 7) : s.Reports (s.writeBack n) := s.produce_reports _ _ _

theorem State.heldTimeout_reports (s : State) (e : Held) (c : Nat) : s.Reports (s.heldTimeout e c) := s.report_reports _ _ _ _

theorem State.storeError_reports (s : State) (pc : Nat) (w : OwnWrite) : s.Reports (s.storeError pc w) :=
  s.reportAt_reports _ _ _ _ _

theorem State.slipReport_reports (s : State) (n : Fin 32) (g : Fin 8) (p : Pairing) (o : SlipOutcome) :
    s.Reports (s.slipReport n g p o) := s.report_reports _ _ _ _

/-! ### Settling -/

/-- A list reordered holds what it held. -/
theorem orderBy_perm : ∀ (pref xs : List Nat), (orderBy pref xs).Perm xs
  | [], _ => List.Perm.refl _
  | p :: ps, xs => by
    unfold orderBy
    split
    · rename_i h
      exact ((orderBy_perm ps (xs.erase p)).cons p).trans (List.perm_cons_erase (by simpa using h)).symm
    · exact orderBy_perm ps xs

theorem State.chooseOrder_perm (s : State) (xs : List Nat) : (s.chooseOrder xs).1.Perm xs := by
  unfold State.chooseOrder
  split
  · exact List.Perm.refl _
  · split
    · exact List.Perm.refl _
    · exact orderBy_perm _ _

theorem State.chooseOrder_dirty (s : State) (xs : List Nat) : (s.chooseOrder xs).2.dirty = s.dirty := by
  unfold State.chooseOrder
  split
  · rfl
  · split <;> rfl

theorem State.produce_dirty (s : State) (k : OwnKind) (a : Nat) (bs : List WriteBeat) : (s.produce k a bs).dirty = s.dirty := by
  unfold State.produce
  simp only []
  split
  · rfl
  · split <;> rfl

theorem State.rewrite_dirty (s : State) (n : Nat) : (s.rewrite n).dirty = s.dirty.erase n := by
  unfold State.rewrite
  split
  · exact State.produce_dirty _ _ _ _
  · rename_i h
    rw [List.erase_of_not_mem (by simpa using h)]

theorem State.foldl_rewrite_dirty (xs : List Nat) (s : State) :
    (xs.foldl State.rewrite s).dirty = xs.foldl List.erase s.dirty := by
  induction xs generalizing s with
  | nil => rfl
  | cons x xs ih => simp only [List.foldl_cons, ih, State.rewrite_dirty]

theorem foldl_erase_perm {xs ys : List Nat} (h : xs.Perm ys) : ys.foldl List.erase xs = [] := by
  induction ys generalizing xs with
  | nil => simpa using h
  | cons y ys ih => exact ih (by simpa using h.erase y)

/-- R183: after the end of an event no changed part is left to rewrite. -/
theorem State.settle_dirty (s : State) : s.settle.dirty = [] := by
  unfold State.settle State.rewriteParts
  have h : s.dirty.filter (fun _ => true) = s.dirty := List.filter_eq_self.2 (by simp)
  simp only [h, State.foldl_rewrite_dirty, State.chooseOrder_dirty]
  exact foldl_erase_perm (s.chooseOrder_perm _).symm

/-- An event that changed no part has nothing to rewrite. -/
theorem State.settle_clean (s : State) (h : s.dirty = []) : s.settle = s := by
  simp [State.settle, State.rewriteParts, State.chooseOrder, h]

end Sys2Proof.Machine
end

