-- ==== Sys2Proof/Laws/Clock.lean ====
section
/-! SUPPORT. What the passing of time and the shape of an event do (log entries 1 and 2). -/

namespace Sys2Proof.Machine

theorem foldl_min_le_start (xs : List Nat) (t : Nat) : xs.foldl min t ≤ t := by
  induction xs generalizing t with
  | nil => exact Nat.le_refl t
  | cons x xs ih => exact Nat.le_trans (ih _) (Nat.min_le_left _ _)

theorem foldl_min_le_mem {xs : List Nat} {d : Nat} (h : d ∈ xs) (t : Nat) : xs.foldl min t ≤ d := by
  induction xs generalizing t with
  | nil => cases h
  | cons x xs ih =>
    rcases List.mem_cons.1 h with rfl | h
    · exact Nat.le_trans (foldl_min_le_start xs (min t d)) (Nat.min_le_right _ _)
    · exact ih h _

theorem foldl_min_eq {xs : List Nat} {t : Nat} (h : ∀ d ∈ xs, t ≤ d) : xs.foldl min t = t := by
  induction xs generalizing t with
  | nil => rfl
  | cons x xs ih =>
    have hx : min t x = t := Nat.min_eq_left (h x (by simp))
    simp only [List.foldl_cons, hx]
    exact ih fun d hd => h d (by simp [hd])

/-- The clock never goes back. -/
theorem State.le_reach (s : State) (t : Nat) : s.now ≤ s.reach t := Nat.le_max_left _ _

/-- The clock does not pass the instant asked for. -/
theorem State.reach_le (s : State) {t : Nat} (h : s.now ≤ t) : s.reach t ≤ t :=
  Nat.max_le.2 ⟨h, foldl_min_le_start _ _⟩

/-- The clock does not pass an event that is due. -/
theorem State.reach_le_due (s : State) (t : Nat) {d : Nat} (h : d ∈ s.dues) : s.reach t ≤ max s.now d :=
  Nat.max_le.2 ⟨Nat.le_max_left _ _, Nat.le_trans (foldl_min_le_mem h t) (Nat.le_max_right _ _)⟩

/-- With nothing due before it, the instant asked for is reached. -/
theorem State.reach_eq (s : State) {t : Nat} (h : s.now ≤ t) (hd : ∀ d ∈ s.dues, t ≤ d) : s.reach t = t := by
  rw [State.reach, foldl_min_eq hd, Nat.max_eq_right h]

/-- No time passes when none is asked for. -/
theorem State.reach_now (s : State) : s.reach s.now = s.now :=
  Nat.le_antisymm (s.reach_le (Nat.le_refl _)) (s.le_reach _)

/-- Time changes the clock, the phase counter, the responses of the step before and the order of the reads that wait, and
nothing else. -/
theorem State.wait_eq (s : State) (dt : Nat) :
    s.wait dt = { s with
      now := s.reach (s.now + dt), phase := if s.rstn then s.phase + (s.reach (s.now + dt) - s.now) else 0, returned := [],
      waiting := s.waitOrder } := rfl

/-! #### What time leaves as it was -/

@[simp] theorem State.wait_pending (s : State) (dt : Nat) : (s.wait dt).pending = s.pending := rfl
@[simp] theorem State.wait_rstn (s : State) (dt : Nat) : (s.wait dt).rstn = s.rstn := rfl
@[simp] theorem State.wait_cwb (s : State) (dt : Nat) : (s.wait dt).cwb = s.cwb := rfl
@[simp] theorem State.wait_startKind (s : State) (dt : Nat) : (s.wait dt).startKind = s.startKind := rfl
@[simp] theorem State.wait_linkOpen (s : State) (dt : Nat) : (s.wait dt).linkOpen = s.linkOpen := rfl
@[simp] theorem State.wait_startupFaults (s : State) (dt : Nat) : (s.wait dt).startupFaults = s.startupFaults := rfl
@[simp] theorem State.wait_presented (s : State) (dt : Nat) : (s.wait dt).presented = s.presented := rfl
@[simp] theorem State.wait_nextId (s : State) (dt : Nat) : (s.wait dt).nextId = s.nextId := rfl
@[simp] theorem State.wait_outstanding (s : State) (dt : Nat) : (s.wait dt).outstanding = s.outstanding := rfl
@[simp] theorem State.wait_parks (s : State) (dt : Nat) : (s.wait dt).parks = s.parks := rfl
@[simp] theorem State.wait_stream (s : State) (dt : Nat) : (s.wait dt).stream = s.stream := rfl
@[simp] theorem State.wait_ownQueue (s : State) (dt : Nat) : (s.wait dt).ownQueue = s.ownQueue := rfl
@[simp] theorem State.wait_offered (s : State) (dt : Nat) : (s.wait dt).offered = s.offered := rfl
@[simp] theorem State.wait_inFlight (s : State) (dt : Nat) : (s.wait dt).inFlight = s.inFlight := rfl
@[simp] theorem State.wait_inFlightOwn (s : State) (dt : Nat) : (s.wait dt).inFlightOwn = s.inFlightOwn := rfl
@[simp] theorem State.wait_rate (s : State) (dt : Nat) : (s.wait dt).rate = s.rate := rfl
@[simp] theorem State.wait_pendingRate (s : State) (dt : Nat) : (s.wait dt).pendingRate = s.pendingRate := rfl
@[simp] theorem State.wait_pc (s : State) (dt : Nat) : (s.wait dt).pc = s.pc := rfl
@[simp] theorem State.wait_preset (s : State) (dt : Nat) : (s.wait dt).preset = s.preset := rfl
@[simp] theorem State.wait_jamMode (s : State) (dt : Nat) : (s.wait dt).jamMode = s.jamMode := rfl
@[simp] theorem State.wait_jamLength (s : State) (dt : Nat) : (s.wait dt).jamLength = s.jamLength := rfl
@[simp] theorem State.wait_jamRun (s : State) (dt : Nat) : (s.wait dt).jamRun = s.jamRun := rfl
@[simp] theorem State.wait_deferral (s : State) (dt : Nat) : (s.wait dt).deferral = s.deferral := rfl
@[simp] theorem State.wait_fpo (s : State) (dt : Nat) : (s.wait dt).fpo = s.fpo := rfl
@[simp] theorem State.wait_lock (s : State) (dt : Nat) : (s.wait dt).lock = s.lock := rfl
@[simp] theorem State.wait_refEnable (s : State) (dt : Nat) : (s.wait dt).refEnable = s.refEnable := rfl
@[simp] theorem State.wait_ref (s : State) (dt : Nat) : (s.wait dt).ref = s.ref := rfl
@[simp] theorem State.wait_pendingRef (s : State) (dt : Nat) : (s.wait dt).pendingRef = s.pendingRef := rfl
@[simp] theorem State.wait_attempts (s : State) (dt : Nat) : (s.wait dt).attempts = s.attempts := rfl
@[simp] theorem State.wait_acqRun (s : State) (dt : Nat) : (s.wait dt).acqRun = s.acqRun := rfl
@[simp] theorem State.wait_holdMark (s : State) (dt : Nat) : (s.wait dt).holdMark = s.holdMark := rfl
@[simp] theorem State.wait_lastUsed (s : State) (dt : Nat) : (s.wait dt).lastUsed = s.lastUsed := rfl
@[simp] theorem State.wait_usedNext (s : State) (dt : Nat) : (s.wait dt).usedNext = s.usedNext := rfl
@[simp] theorem State.wait_scheduled (s : State) (dt : Nat) : (s.wait dt).scheduled = s.scheduled := rfl
@[simp] theorem State.wait_excursion (s : State) (dt : Nat) : (s.wait dt).excursion = s.excursion := rfl
@[simp] theorem State.wait_strict (s : State) (dt : Nat) : (s.wait dt).strict = s.strict := rfl
@[simp] theorem State.wait_holdCount (s : State) (dt : Nat) : (s.wait dt).holdCount = s.holdCount := rfl
@[simp] theorem State.wait_sources (s : State) (dt : Nat) : (s.wait dt).sources = s.sources := rfl
@[simp] theorem State.wait_indexRing (s : State) (dt : Nat) : (s.wait dt).indexRing = s.indexRing := rfl
@[simp] theorem State.wait_indexSeq (s : State) (dt : Nat) : (s.wait dt).indexSeq = s.indexSeq := rfl
@[simp] theorem State.wait_claps (s : State) (dt : Nat) : (s.wait dt).claps = s.claps := rfl
@[simp] theorem State.wait_groups (s : State) (dt : Nat) : (s.wait dt).groups = s.groups := rfl
@[simp] theorem State.wait_markers (s : State) (dt : Nat) : (s.wait dt).markers = s.markers := rfl
@[simp] theorem State.wait_windows (s : State) (dt : Nat) : (s.wait dt).windows = s.windows := rfl
@[simp] theorem State.wait_held (s : State) (dt : Nat) : (s.wait dt).held = s.held := rfl
@[simp] theorem State.wait_redirects (s : State) (dt : Nat) : (s.wait dt).redirects = s.redirects := rfl
@[simp] theorem State.wait_inbox (s : State) (dt : Nat) : (s.wait dt).inbox = s.inbox := rfl
@[simp] theorem State.wait_settings (s : State) (dt : Nat) : (s.wait dt).settings = s.settings := rfl
@[simp] theorem State.wait_slots (s : State) (dt : Nat) : (s.wait dt).slots = s.slots := rfl
@[simp] theorem State.wait_drain (s : State) (dt : Nat) : (s.wait dt).drain = s.drain := rfl
@[simp] theorem State.wait_producer (s : State) (dt : Nat) : (s.wait dt).producer = s.producer := rfl
@[simp] theorem State.wait_consumer (s : State) (dt : Nat) : (s.wait dt).consumer = s.consumer := rfl
@[simp] theorem State.wait_eventFlags (s : State) (dt : Nat) : (s.wait dt).eventFlags = s.eventFlags := rfl
@[simp] theorem State.wait_dirty (s : State) (dt : Nat) : (s.wait dt).dirty = s.dirty := rfl
@[simp] theorem State.wait_orders (s : State) (dt : Nat) : (s.wait dt).orders = s.orders := rfl
@[simp] theorem State.wait_returned (s : State) (dt : Nat) : (s.wait dt).returned = [] := rfl
@[simp] theorem State.wait_waiting (s : State) (dt : Nat) : (s.wait dt).waiting = s.waitOrder := rfl

/-- An event taken while RST_N is high. -/
theorem State.event_running {s : State} (h : s.rstn = true) (dt : Nat) (f : State → State) :
    s.event dt f = (f (s.wait dt)).settle := if_pos h

/-- Nothing is taken while RST_N is low. -/
theorem State.event_low {s : State} (h : s.rstn = false) (dt : Nat) (f : State → State) : s.event dt f = s.wait dt := by
  simp [State.event, h]

/-- An event that the bridge times, whose instant the clock reaches. -/
theorem State.timed_due {s : State} {t : Nat} (h : s.rstn = true) (ht : t ≤ s.reach t) (f : State → State) :
    s.timed (some t) f = (f (s.advanceTo t)).settle := if_pos ⟨h, ht⟩

/-- After every event the changed parts of the status block have been rewritten. -/
theorem State.event_dirty {s : State} (h : s.rstn = true) (dt : Nat) (f : State → State) : (s.event dt f).dirty = [] := by
  rw [State.event_running h]
  exact State.settle_dirty _

end Sys2Proof.Machine
end

