-- ==== Sys2Proof/Laws/Commands.lean ====
section
/-! SUPPORT. What the taking of a command does: one lemma for the command unit's part, so that a proof about a command
looks only at its owner's answer (R163, R164). -/

namespace Sys2Proof.Machine

/-! ### The command slots -/

@[simp] theorem State.chooseOrder_slots (s : State) (xs : List Nat) : (s.chooseOrder xs).2.slots = s.slots := by
  unfold State.chooseOrder
  split
  · rfl
  · split <;> rfl

@[simp] theorem State.produce_slots (s : State) (k : OwnKind) (a : Nat) (bs : List WriteBeat) :
    (s.produce k a bs).slots = s.slots := by
  unfold State.produce
  simp only []
  split
  · rfl
  · split <;> rfl

@[simp] theorem State.mark_slots (s : State) (n : Nat) : (s.mark n).slots = s.slots := by
  unfold State.mark
  split <;> rfl

@[simp] theorem State.rewrite_slots (s : State) (n : Nat) : (s.rewrite n).slots = s.slots := by
  unfold State.rewrite
  split
  · exact State.produce_slots _ _ _ _
  · rfl

theorem State.foldl_rewrite_slots (xs : List Nat) (s : State) : (xs.foldl State.rewrite s).slots = s.slots := by
  induction xs generalizing s with
  | nil => rfl
  | cons x xs ih => simp only [List.foldl_cons, ih, State.rewrite_slots]

@[simp] theorem State.rewriteParts_slots (s : State) (p : Nat → Bool) : (s.rewriteParts p).slots = s.slots := by
  simp [State.rewriteParts, State.foldl_rewrite_slots]

@[simp] theorem State.settle_slots (s : State) : s.settle.slots = s.slots := s.rewriteParts_slots _

@[simp] theorem State.rewriteOwners_slots (s : State) : s.rewriteOwners.slots = s.slots := s.rewriteParts_slots _

@[simp] theorem State.raise_slots (s : State) (f : EventFlags → EventFlags) : (s.raise f).slots = s.slots := by
  unfold State.raise
  split
  · rfl
  · exact State.mark_slots _ _

@[simp] theorem State.reportAt_slots (s : State) (pc : Nat) (k : ReportKind) (subject d1 d2 : Nat) :
    (s.reportAt pc k subject d1 d2).slots = s.slots := by
  unfold State.reportAt
  simp only []
  split
  · split <;> simp [State.produceControl]
  · simp

@[simp] theorem State.report_slots (s : State) (k : ReportKind) (subject d1 d2 : Nat) :
    (s.report k subject d1 d2).slots = s.slots := s.reportAt_slots _ _ _ _ _

/-- R165: at its completion a slot takes the state of the result. -/
theorem State.completeLeaving_slots (s : State) (flag : Bool) (slot : Fin 16) (rec : Beat) (c : Bool) (code : ResultCode)
    (pc r1 r2 : Nat) : (s.completeLeaving flag slot rec c code pc r1 r2).slots = s.slots.set slot (CommandSlot.ofResult code) := by
  simp [State.completeLeaving, State.statusRecord, State.produceControl]

theorem State.complete_slots (s : State) (slot : Fin 16) (rec : Beat) (c : Bool) (code : ResultCode) (pc r1 r2 : Nat) :
    (s.complete slot rec c code pc r1 r2).slots = s.slots.set slot (CommandSlot.ofResult code) :=
  s.completeLeaving_slots _ _ _ _ _ _ _ _

/-- R163: a command that goes on makes its slot PENDING, with the record and a clear collision mark. -/
theorem State.makePending_slots (s : State) (slot : Fin 16) (rec : Beat) :
    (s.makePending slot rec).slots = s.slots.set slot (.pending rec false) := by
  simp [State.makePending, State.statusRecord, State.produceControl]

theorem finishCommand_slots (slot : Fin 16) (rec : Beat) (o : Owned) :
    (finishCommand slot rec o).slots = o.1.slots.set slot (slotAfter rec o.2) := by
  unfold finishCommand
  simp only []
  split <;> rename_i h <;> simp [h, State.complete_slots, State.makePending_slots, slotAfter, CommandSlot.ofResult]

/-! ### Taking a command -/

/-- R159: the beat at the front of what was handed to the command unit is taken. -/
theorem State.takeBeat_front {s : State} {b : ControlBeat} {rest : List ControlBeat} (hr : s.rstn = true)
    (h : s.inbox = b :: rest) (f : State → State) : s.takeBeat b f = f { s with inbox := rest } := by
  unfold State.takeBeat
  simp only [h, hr, decide_true, Bool.and_self, if_true]

/-- R163: a command written into a slot that is not PENDING is run, while no drain runs. -/
theorem State.runRecord_run {s : State} {slot : Fin 16} (h : s.slots[slot].isPending = false) (hd : s.drain = none)
    (rec : Beat) (run : State → State) : s.runRecord slot rec run = run s := by
  unfold State.runRecord
  rw [if_neg (by rw [h]; simp), if_neg (by simp [hd])]

/-- An offered record is taken and run. -/
theorem State.takeCommand_offered {s : State} {slot : Fin 16} {rec : Beat} {rest : List ControlBeat} (hr : s.rstn = true)
    (ho : s.Offers slot rec rest) (dt : Nat) (run : State → State) :
    (s.wait dt).takeCommand slot rec true run = run { s.wait dt with inbox := rest } := by
  obtain ⟨h1, h2, h3⟩ := ho
  unfold State.takeCommand
  rw [if_pos rfl, State.takeBeat_front (s := s.wait dt) (rest := rest) ((s.wait_rstn dt).trans hr) ((s.wait_inbox dt).trans h1)]
  exact State.runRecord_run (s := { s.wait dt with inbox := rest }) h2 h3 rec run

/-- R159, R163: an offered command that the row names is given to its owner, and the owner's answer finishes it. -/
theorem State.commandEvent_offered {s : State} {slot : Fin 16} {rec : Beat} {rest : List ControlBeat} (hr : s.rstn = true)
    (ho : s.Offers slot rec rest) (dt : Nat) (own : State → Owned) :
    s.commandEvent dt slot rec true own = (finishCommand slot rec (own { s.wait dt with inbox := rest })).settle := by
  unfold State.commandEvent
  rw [State.event_running hr, State.takeCommand_offered hr ho]

/-- What a command does: its owner's answer `u`, and reporting after it. -/
theorem State.commandEvent_spec {s : State} {slot : Fin 16} {rec : Beat} {rest : List ControlBeat} {dt : Nat}
    {own : State → Owned} {u : State} {a : CommandResult} (hr : s.rstn = true) (ho : s.Offers slot rec rest)
    (h : own { s.wait dt with inbox := rest } = (u, a)) :
    u.Reports (s.commandEvent dt slot rec true own) ∧
      (s.commandEvent dt slot rec true own).slots = u.slots.set slot (slotAfter rec a) ∧
      (s.commandEvent dt slot rec true own).dirty = [] := by
  rw [State.commandEvent_offered hr ho, h]
  refine ⟨(finishCommand_reports slot rec (u, a)).trans (State.settle_reports _), ?_, State.settle_dirty _⟩
  rw [State.settle_slots, finishCommand_slots]

/-- R142: what WINDOW_CUE changes of a window, and that it keeps the field its mode does not read. -/
theorem Window.aimed_eq (x : Window) (aim : WindowAim) (target : Stamp) :
    x.aimed aim target = { x with
      mode := aim.mode, delay := if aim.mode = .liveDelay then aim.delay else x.delay,
      cue := if aim.mode = .liveDelay then x.cue else aim.cue, target := target, slugReported := none } := by
  obtain ⟨mode, delay, cue⟩ := aim
  cases mode <;> rfl

end Sys2Proof.Machine
end

