-- ==== Sys2Proof/Laws/Finishes.lean ====
section
/-! SUPPORT. What the end of a command leaves: the status record stands among the own writes, the slot and the flags
are as R164 says, and the rest is reporting. Proofs about a command cite `State.commandEvent_finishes`. -/

namespace Sys2Proof.Machine

/-! ### The event flags through the operations of reporting -/

@[simp] theorem State.chooseOrder_eventFlags (s : State) (xs : List Nat) : (s.chooseOrder xs).2.eventFlags = s.eventFlags := by
  unfold State.chooseOrder
  split
  · rfl
  · split <;> rfl

@[simp] theorem State.produce_eventFlags (s : State) (k : OwnKind) (a : Nat) (bs : List WriteBeat) :
    (s.produce k a bs).eventFlags = s.eventFlags := by
  unfold State.produce
  simp only []
  split
  · rfl
  · split <;> rfl

@[simp] theorem State.mark_eventFlags (s : State) (n : Nat) : (s.mark n).eventFlags = s.eventFlags := by
  unfold State.mark
  split <;> rfl

@[simp] theorem State.rewrite_eventFlags (s : State) (n : Nat) : (s.rewrite n).eventFlags = s.eventFlags := by
  unfold State.rewrite
  split
  · exact State.produce_eventFlags _ _ _ _
  · rfl

theorem State.foldl_rewrite_eventFlags (xs : List Nat) (s : State) :
    (xs.foldl State.rewrite s).eventFlags = s.eventFlags := by
  induction xs generalizing s with
  | nil => rfl
  | cons x xs ih => simp only [List.foldl_cons, ih, State.rewrite_eventFlags]

@[simp] theorem State.rewriteParts_eventFlags (s : State) (p : Nat → Bool) :
    (s.rewriteParts p).eventFlags = s.eventFlags := by
  simp [State.rewriteParts, State.foldl_rewrite_eventFlags]

@[simp] theorem State.settle_eventFlags (s : State) : s.settle.eventFlags = s.eventFlags := s.rewriteParts_eventFlags _

@[simp] theorem State.rewriteOwners_eventFlags (s : State) : s.rewriteOwners.eventFlags = s.eventFlags :=
  s.rewriteParts_eventFlags _

@[simp] theorem State.raise_eventFlags (s : State) (f : EventFlags → EventFlags) :
    (s.raise f).eventFlags = f s.eventFlags := by
  unfold State.raise
  split
  · rename_i h
    exact h.symm
  · exact State.mark_eventFlags _ _

theorem EventFlags.UpToOverrun.refl (f : EventFlags) : f.UpToOverrun f := ⟨rfl, id⟩

theorem EventFlags.UpToOverrun.trans {f g h : EventFlags} (a : f.UpToOverrun g) (b : g.UpToOverrun h) : f.UpToOverrun h := by
  obtain ⟨a1, a2⟩ := a
  obtain ⟨b1, b2⟩ := b
  refine ⟨?_, fun k => b2 (a2 k)⟩
  rw [b1, a1]

theorem EventFlags.UpToOverrun.done {f g : EventFlags} (a : f.UpToOverrun g) : f.done.UpToOverrun g.done := by
  obtain ⟨a1, a2⟩ := a
  refine ⟨?_, a2⟩
  rw [EventFlags.done, a1]
  rfl

/-- R180, R176: a report handed over sets its flag, and may set REPORT_OVERRUN. -/
theorem State.reportAt_flags (s : State) (pc : Nat) (k : ReportKind) (subject d1 d2 : Nat) :
    (k.raises s.eventFlags).UpToOverrun (s.reportAt pc k subject d1 d2).eventFlags := by
  unfold State.reportAt
  simp only []
  split
  · split
    · simp [State.produceControl, EventFlags.UpToOverrun.refl]
    · simp [EventFlags.UpToOverrun]
  · simp [EventFlags.UpToOverrun.refl]

/-! ### Own writes stay until they are issued -/

/-- Every own write of `s` but write-backs stands in `t` as well. -/
def State.KeepsWrites (s t : State) : Prop :=
  ∀ w ∈ s.ownQueue ++ s.offered, w.kind.isWriteBack = false → w ∈ t.ownQueue ++ t.offered

theorem State.KeepsWrites.trans {s t u : State} (h : s.KeepsWrites t) (k : t.KeepsWrites u) : s.KeepsWrites u :=
  fun w hw hb => k w (h w hw hb) hb

theorem State.KeepsWrites.of_eq {s t : State} (h : t.ownQueue = s.ownQueue) (k : t.offered = s.offered) : s.KeepsWrites t := by
  intro w hw _
  rwa [h, k]

theorem mergeWriteBack_other {w o : OwnWrite} (hw : w.kind.isWriteBack = true) (ho : o.kind.isWriteBack = false) :
    mergeWriteBack w o = o := by
  unfold mergeWriteBack
  rw [if_neg]
  intro h
  rw [h, hw] at ho
  cases ho

/-- R14, R15: what producing an own write does to the own writes that stand. -/
theorem State.produce_keeps (s : State) (k : OwnKind) (a : Nat) (bs : List WriteBeat) :
    s.KeepsWrites (s.produce k a bs) := by
  intro w hw hb
  unfold State.produce
  simp only []
  split
  · rename_i h
    have hk : k.isWriteBack = true := by simp only [Bool.and_eq_true] at h; exact h.1
    rw [List.mem_append] at hw ⊢
    have hm : mergeWriteBack { kind := k, addr := a, beats := bs, joined := s.now } w = w := mergeWriteBack_other hk hb
    rcases hw with hw | hw
    · exact Or.inl (List.mem_map.2 ⟨w, hw, hm⟩)
    · exact Or.inr (List.mem_map.2 ⟨w, hw, hm⟩)
  · split
    · rcases List.mem_append.1 hw with hw | hw
      · exact List.mem_append_left _ (List.mem_append_left _ hw)
      · exact List.mem_append_right _ hw
    · rcases List.mem_append.1 hw with hw | hw
      · exact List.mem_append_left _ hw
      · exact List.mem_append_right _ (List.mem_append_left _ hw)

theorem mergeWriteBack_kind (w o : OwnWrite) : (mergeWriteBack w o).kind = o.kind := by
  unfold mergeWriteBack
  split <;> rfl

theorem mergeWriteBack_addr (w o : OwnWrite) : (mergeWriteBack w o).addr = o.addr := by
  unfold mergeWriteBack
  split <;> rfl

/-- R14, R15: an own write that stands after a production goes where one that stood before goes, or where the new one goes. -/
theorem State.produce_place (s : State) (k : OwnKind) (a : Nat) (bs : List WriteBeat) {o : OwnWrite}
    (h : o ∈ (s.produce k a bs).ownQueue ++ (s.produce k a bs).offered) :
    (∃ w ∈ s.ownQueue ++ s.offered, o.kind = w.kind ∧ o.addr = w.addr) ∨ (o.kind = k ∧ o.addr = a) := by
  unfold State.produce at h
  simp only [] at h
  split at h
  · simp only [← List.map_append] at h
    obtain ⟨w, hw, rfl⟩ := List.mem_map.1 h
    exact Or.inl ⟨w, hw, mergeWriteBack_kind _ _, mergeWriteBack_addr _ _⟩
  · by_cases ho : o ∈ s.ownQueue ++ s.offered
    · exact Or.inl ⟨o, ho, rfl, rfl⟩
    · have new : o = { kind := k, addr := a, beats := bs, joined := s.now } := by
        split at h <;> simp only [List.mem_append, List.mem_singleton, not_or] at h ho
        · exact h.elim (fun h => h.elim (fun h => absurd h ho.1) id) fun h => absurd h ho.2
        · exact h.elim (fun h => absurd h ho.1) fun h => h.elim (fun h => absurd h ho.2) id
      exact Or.inr ⟨congrArg OwnWrite.kind new, congrArg OwnWrite.addr new⟩

/-- R14: an own write that is no write-back stands where it was produced. -/
theorem State.produce_wrote (s : State) {k : OwnKind} (hk : k.isWriteBack = false) (a : Nat) (b : Beat) :
    (s.produce k a [fullBeat b]).Wrote k a b := by
  unfold State.produce State.Wrote
  simp only [hk, Bool.false_and, Bool.false_eq_true, if_false]
  split
  · exact ⟨{ kind := k, addr := a, beats := [fullBeat b], joined := s.now }, by simp, rfl, rfl, rfl⟩
  · exact ⟨{ kind := k, addr := a, beats := [fullBeat b], joined := s.now }, by simp, rfl, rfl, rfl⟩

theorem State.KeepsWrites.wrote {s t : State} (h : s.KeepsWrites t) {k : OwnKind} (hk : k.isWriteBack = false) {a : Nat}
    {b : Beat} (hw : s.Wrote k a b) : t.Wrote k a b := by
  obtain ⟨w, hm, h1, h2, h3⟩ := hw
  exact ⟨w, h w hm (by rw [h1]; exact hk), h1, h2, h3⟩

theorem State.chooseOrder_keeps (s : State) (xs : List Nat) : s.KeepsWrites (s.chooseOrder xs).2 := by
  unfold State.chooseOrder
  split
  · exact State.KeepsWrites.of_eq rfl rfl
  · split <;> exact State.KeepsWrites.of_eq rfl rfl

theorem State.mark_keeps (s : State) (n : Nat) : s.KeepsWrites (s.mark n) := by
  unfold State.mark
  split <;> exact State.KeepsWrites.of_eq rfl rfl

theorem State.rewrite_keeps (s : State) (n : Nat) : s.KeepsWrites (s.rewrite n) := by
  unfold State.rewrite
  split
  · exact State.KeepsWrites.trans (t := { s with dirty := s.dirty.erase n }) (State.KeepsWrites.of_eq rfl rfl)
      (State.produce_keeps _ _ _ _)
  · exact State.KeepsWrites.of_eq rfl rfl

theorem State.foldl_rewrite_keeps (xs : List Nat) (s : State) : s.KeepsWrites (xs.foldl State.rewrite s) := by
  induction xs generalizing s with
  | nil => exact State.KeepsWrites.of_eq rfl rfl
  | cons x xs ih => exact (s.rewrite_keeps x).trans (ih _)

theorem State.rewriteParts_keeps (s : State) (p : Nat → Bool) : s.KeepsWrites (s.rewriteParts p) :=
  (s.chooseOrder_keeps _).trans (State.foldl_rewrite_keeps _ _)

theorem State.raise_keeps (s : State) (f : EventFlags → EventFlags) : s.KeepsWrites (s.raise f) := by
  unfold State.raise
  split
  · exact State.KeepsWrites.of_eq rfl rfl
  · exact State.KeepsWrites.trans (t := { s with eventFlags := f s.eventFlags }) (State.KeepsWrites.of_eq rfl rfl)
      (State.mark_keeps _ _)

theorem State.reportAt_keeps (s : State) (pc : Nat) (k : ReportKind) (subject d1 d2 : Nat) :
    s.KeepsWrites (s.reportAt pc k subject d1 d2) := by
  have h := s.raise_keeps k.raises
  unfold State.reportAt
  simp only []
  split
  · split
    · exact h.trans ((State.KeepsWrites.trans
        (t := { s.raise k.raises with producer := (s.raise k.raises).producer + 1 }) (State.KeepsWrites.of_eq rfl rfl)
        (State.produce_keeps _ _ _ _)).trans (State.mark_keeps _ _))
    · exact h.trans (State.raise_keeps _ _)
  · exact h

/-! ### The end of a command -/

@[simp] theorem State.statusRecord_eventFlags (s : State) (slot : Fin 16) (st res : Nat) (rec : Beat) (c : Bool) (pc r1 r2 : Nat) :
    (s.statusRecord slot st res rec c pc r1 r2).eventFlags = s.eventFlags := State.produce_eventFlags _ _ _ _

/-- The flags after a completion: COMMAND_DONE as the completion leaves it, and the others as they were, but for a full
ring. -/
theorem State.completeLeaving_flags (s : State) (flag : Bool) (slot : Fin 16) (rec : Beat) (c : Bool) (code : ResultCode)
    (pc r1 r2 : Nat) : EventFlags.UpToOverrun { s.eventFlags with commandDone := flag }
      (s.completeLeaving flag slot rec c code pc r1 r2).eventFlags := by
  have h : ∀ t : State, t.eventFlags = s.eventFlags → EventFlags.UpToOverrun { s.eventFlags with commandDone := flag }
      ((t.raise fun f => { f with commandDone := flag }).report .commandDone slot.val
        (byteWord [commandCode rec, code.code]) (commandTag rec)).eventFlags := by
    intro t ht
    have h := State.reportAt_flags (t.raise fun f => { f with commandDone := flag })
      (t.raise fun f => { f with commandDone := flag }).pc .commandDone slot.val
      (byteWord [commandCode rec, code.code]) (commandTag rec)
    rw [State.raise_eventFlags, ht] at h
    exact h
  exact h _ (State.statusRecord_eventFlags _ _ _ _ _ _ _ _ _)

theorem State.complete_flags (s : State) (slot : Fin 16) (rec : Beat) (c : Bool) (code : ResultCode) (pc r1 r2 : Nat) :
    s.eventFlags.done.UpToOverrun (s.complete slot rec c code pc r1 r2).eventFlags := s.completeLeaving_flags _ _ _ _ _ _ _ _

/-- R164: the final status record of a command. -/
theorem State.completeLeaving_wrote (s : State) (flag : Bool) (slot : Fin 16) (rec : Beat) (c : Bool) (code : ResultCode)
    (pc r1 r2 : Nat) :
    (s.completeLeaving flag slot rec c code pc r1 r2).Wrote (.statusRecord slot.val)
      (s.controlBase + statusRecordOffset slot.val)
      (statusRecordBeat (CommandSlot.ofResult code).code code.code (commandCode rec) (flagNat c) (commandTag rec) pc r1 r2) := by
  unfold State.completeLeaving
  refine ((State.raise_keeps _ _).trans (State.reportAt_keeps _ _ _ _ _ _)).wrote rfl ?_
  exact State.produce_wrote _ rfl _ _

theorem State.complete_wrote (s : State) (slot : Fin 16) (rec : Beat) (c : Bool) (code : ResultCode) (pc r1 r2 : Nat) :
    (s.complete slot rec c code pc r1 r2).Wrote (.statusRecord slot.val) (s.controlBase + statusRecordOffset slot.val)
      (statusRecordBeat (CommandSlot.ofResult code).code code.code (commandCode rec) (flagNat c) (commandTag rec) pc r1 r2) :=
  s.completeLeaving_wrote _ _ _ _ _ _ _ _

/-- The flags that an owner's answer leaves. -/
def flagsAfter (f : EventFlags) : CommandResult → EventFlags
  | .done _ _ | .refused _ => f.done
  | .goesOn => f

/-- R163 to R165: what the end of a command leaves, once its owner has answered. -/
theorem finishCommand_finishes {u v : State} (slot : Fin 16) (rec : Beat) (a : CommandResult) {f : EventFlags}
    (hr : u.Reports v) (hs : v.slots = u.slots) (hf : f.UpToOverrun v.eventFlags)
    (ha : ∀ c, a = .refused c → c ≠ .done ∧ c ≠ .abortedRestart) :
    u.Finishes (finishCommand slot rec (v, a)).settle slot rec a (flagsAfter f a) := by
  have hb : v.rewriteOwners.controlBase = u.controlBase := by
    unfold State.controlBase
    rw [v.rewriteOwners_reports.cwb, hr.cwb]
  have hp : v.rewriteOwners.pc = u.pc := by rw [v.rewriteOwners_reports.pc, hr.pc]
  refine ⟨(hr.trans (finishCommand_reports slot rec (v, a))).trans (State.settle_reports _), ?_, ?_, ?_,
    State.settle_dirty _⟩
  · rw [State.settle_slots, finishCommand_slots, hs]
  · refine (State.rewriteParts_keeps _ _).wrote rfl ?_
    cases a with
    | done r1 r2 =>
      have h := State.complete_wrote v.rewriteOwners slot rec false .done v.rewriteOwners.pc r1 r2
      rw [hb] at h
      exact hp ▸ h
    | refused c =>
      have h := State.complete_wrote v.rewriteOwners slot rec false c v.rewriteOwners.pc 0 0
      have hc : (CommandSlot.ofResult c).code = 3 := by
        have := ha c rfl
        cases c <;> simp_all [CommandSlot.ofResult, CommandSlot.code]
      rw [hb, hc] at h
      exact hp ▸ h
    | goesOn =>
      have h := State.produce_wrote
        { v.rewriteOwners with slots := v.rewriteOwners.slots.set slot (.pending rec false) }
        (k := .statusRecord slot.val) rfl (u.controlBase + statusRecordOffset slot.val)
        (statusRecordBeat 1 0 (commandCode rec) 0 (commandTag rec) v.rewriteOwners.pc 0 0)
      rw [← hb] at h ⊢
      exact hp ▸ h
  · rw [State.settle_eventFlags]
    unfold finishCommand flagsAfter
    cases a with
    | done r1 r2 =>
      exact hf.done.trans (by simpa using State.complete_flags v.rewriteOwners slot rec false .done v.rewriteOwners.pc r1 r2)
    | refused c =>
      exact hf.done.trans (by simpa using State.complete_flags v.rewriteOwners slot rec false c v.rewriteOwners.pc 0 0)
    | goesOn => simpa [State.makePending, State.statusRecord, State.produceControl] using hf

/-- What a command does: its owner answers `v`, which differs from its effect `u` only by reporting. -/
theorem State.commandEvent_finishes {s u v : State} {slot : Fin 16} {rec : Beat} {rest : List ControlBeat} {dt : Nat}
    {own : State → Owned} {a : CommandResult} {f : EventFlags} (hr : s.rstn = true) (ho : s.Offers slot rec rest)
    (h : own { s.wait dt with inbox := rest } = (v, a)) (hv : u.Reports v) (hs : v.slots = u.slots)
    (hf : f.UpToOverrun v.eventFlags) (ha : ∀ c, a = .refused c → c ≠ .done ∧ c ≠ .abortedRestart) :
    u.Finishes (s.commandEvent dt slot rec true own) slot rec a (flagsAfter f a) := by
  rw [State.commandEvent_offered hr ho, h]
  exact finishCommand_finishes slot rec a hv hs hf ha

/-- R183: a rewrite that is the newest own write stands among the own writes. -/
theorem State.ShowsLast.shows {t : State} {part : Nat} (h : t.ShowsLast part) : t.Shows part := by
  obtain ⟨w, hw, he⟩ := Option.map_eq_some_iff.1 h
  simp only [Prod.mk.injEq] at he
  exact ⟨w, List.mem_of_getLast? hw, he⟩

end Sys2Proof.Machine
end

