-- ==== Sys2Proof/Laws/Requests.lean ====
section
/-! SUPPORT. When a presented request is taken (R2, R146): who waits for a redirect entry, in which order, and that the
passing of time changes nothing of it. -/

namespace Sys2Proof.Machine

/-! ### Presenting -/

theorem State.present_of_presents {s : State} {r : Request} (h : s.presents r.initiator = true) : s.present r = s :=
  if_pos h

theorem State.present_of_not_presents {s : State} {r : Request} (h : s.presents r.initiator = false) :
    s.present r = { s with presented := s.presented ++ [r] } := by
  simp [State.present, h]

theorem State.presents_iff (s : State) (i : Fin 64) : s.presents i = true ↔ ∃ q ∈ s.presented, q.initiator = i := by
  simp [State.presents]

/-! ### The order of the reads that wait -/

/-- An initiator is in the order exactly when it presents a request and waited before, or presents one that waits now. -/
theorem State.mem_waitOrder (s : State) (i : Fin 64) :
    i ∈ s.waitOrder ↔
      s.presents i = true ∧ (i ∈ s.waiting ∨ ∃ q ∈ s.presented, q.initiator = i ∧ s.waitsForEntry q = true) := by
  simp only [State.waitOrder, List.mem_append, List.mem_filter, List.mem_map, Bool.and_eq_true, Bool.not_eq_true',
    List.contains_eq_mem, decide_eq_false_iff_not]
  constructor
  · rintro (⟨h, hp⟩ | ⟨q, ⟨hq, hw, -⟩, rfl⟩)
    · exact ⟨hp, Or.inl h⟩
    · exact ⟨(s.presents_iff _).2 ⟨q, hq, rfl⟩, Or.inr ⟨q, hq, rfl, hw⟩⟩
  · rintro ⟨hp, h⟩
    by_cases hi : i ∈ s.waiting
    · exact Or.inl ⟨hi, hp⟩
    · obtain ⟨q, hq, rfl, hw⟩ := h.resolve_left hi
      exact Or.inr ⟨q, ⟨hq, hw, fun h => hi h.1⟩, rfl⟩

/-- Nobody waits where nobody waited and the redirect table has room. -/
theorem State.waitOrder_eq_nil {s : State} (hw : s.waiting = []) (hr : s.redirects.length < 32) : s.waitOrder = [] := by
  refine List.eq_nil_iff_forall_not_mem.2 fun i hi => ?_
  rcases ((s.mem_waitOrder i).1 hi).2 with h | ⟨q, -, -, hq⟩
  · simp [hw] at h
  · simp [State.waitsForEntry, Nat.not_le.2 hr] at hq

/-! ### Taking -/

theorem State.couldTake_of_canTake {s : State} {r : Request} (h : s.canTake r = true) : s.couldTake r = true := by
  simp only [State.canTake, Bool.and_eq_true] at h
  exact h.1

/-- A request that neither waits nor needs a redirect entry stands behind no other. -/
theorem State.canTake_of_no_entry {s : State} {r : Request} (hn : s.needsRedirect r = false) (hw : r.initiator ∉ s.waitOrder) :
    s.canTake r = s.couldTake r := by
  simp [State.canTake, hn, hw]

/-- Where nobody waits, a request that could be taken is taken. -/
theorem State.canTake_of_no_wait {s : State} {r : Request} (hw : s.waitOrder = []) : s.canTake r = s.couldTake r := by
  simp [State.canTake, State.hasTurn, hw]

/-! ### Time -/

@[simp] theorem State.wait_classify (s : State) (dt : Nat) (r : Request) : (s.wait dt).classify r = s.classify r := rfl
@[simp] theorem State.wait_presents (s : State) (dt : Nat) (i : Fin 64) : (s.wait dt).presents i = s.presents i := rfl
@[simp] theorem State.wait_admits (s : State) (dt : Nat) (r : Request) : (s.wait dt).admits r = s.admits r := rfl
@[simp] theorem State.wait_needsRedirect (s : State) (dt : Nat) (r : Request) :
    (s.wait dt).needsRedirect r = s.needsRedirect r := rfl
@[simp] theorem State.wait_couldTake (s : State) (dt : Nat) (r : Request) : (s.wait dt).couldTake r = s.couldTake r := rfl
@[simp] theorem State.wait_waitsForEntry (s : State) (dt : Nat) (r : Request) :
    (s.wait dt).waitsForEntry r = s.waitsForEntry r := rfl

/-- The passing of time keeps the places of the reads that wait. -/
@[simp] theorem State.wait_waitOrder (s : State) (dt : Nat) : (s.wait dt).waitOrder = s.waitOrder := by
  have kept : s.waitOrder.filter s.presents = s.waitOrder :=
    List.filter_eq_self.2 fun i hi => ((s.mem_waitOrder i).1 hi).1
  have noNew : (s.presented.filter fun r => s.waitsForEntry r && !s.waitOrder.contains r.initiator) = [] := by
    refine List.filter_eq_nil_iff.2 fun r hr h => ?_
    simp only [Bool.and_eq_true, Bool.not_eq_true', List.contains_eq_mem, decide_eq_false_iff_not] at h
    exact h.2 ((s.mem_waitOrder _).2 ⟨(s.presents_iff _).2 ⟨r, hr, rfl⟩, Or.inr ⟨r, hr, rfl, h.1⟩⟩)
  show s.waitOrder.filter s.presents ++
      (s.presented.filter fun r => s.waitsForEntry r && !(s.waitOrder.filter s.presents).contains r.initiator).map
        Request.initiator = s.waitOrder
  rw [kept, noNew]
  simp

/-! ### The command -/

/-- R2: a request that comes while RST_N is low is presented, and nothing else happens but the passing of time. -/
theorem execRequestTaken_low {s : State} {r : Request} (h : s.rstn = false) (hw : r.wf = true) (dt : Nat) :
    execRequestTaken dt r s = .next ((s.wait dt).present r) := by
  simp [execRequestTaken, h, hw]

/-- A request that comes to a running bridge is decided after the ticks before it, in one event. -/
theorem execRequestTaken_running {s : State} {r : Request} (h : s.rstn = true) (hw : r.wf = true) (dt : Nat) :
    execRequestTaken dt r s = .next ((s.wait dt).requestTaken r).settle := by
  simp [execRequestTaken, State.event, h, hw]

end Sys2Proof.Machine
end

