-- ==== Sys2Proof/Tests/Slice0.lean ====
section
/-! SUPPORT. The model's own tests. Expected values come from the manual: its worked examples (the section is named at each
test) and hand calculation from its rules. `smoke_` theorems show an ill-formed term for each check of WellFormed.lean;
`test_` theorems run one step; `witness_` theorems show that the hypotheses of a statement are met, clause by clause. -/

namespace Sys2Proof.Tests
open Sys2Proof Sys2Proof.Machine

-- The tests are many and small: one after another they need the stack of one thread.
set_option Elab.async false

/-! ### Helpers -/

/-- The state a command leaves. -/
def after (c : Instr) (s : State) : State :=
  match exec c s with
  | .next t => t
  | .fault _ | .refused _ => s

/-- A bridge whose start is over: the system link is open and no own write is queued. -/
def running : State := { State.reset with linkOpen := true, ownQueue := [] }

/-- A command record with tag 77. -/
def command (code : Nat) (fields : List (Nat × Nat × Nat)) : Beat := pack ((0, 1, code) :: (4, 4, 77) :: fields)

/-- A state in which a record of command slot 3 has been handed to the command unit. -/
def given (s : State) (rec : Beat) : State := { s with inbox := [slotBeat 3 rec] }

/-- A header of identity 0 with a position, flags and a clap offset. -/
def header (position flags clapOffset : Nat) : Beat :=
  pack [(0, 8, leadPattern.toNat), (16, 8, position), (24, 4, flags), (28, 4, clapOffset)]

/-- The read or write of an initiator. -/
def readOf (i : Fin 64) (addr beats : Nat) : Request :=
  { initiator := i, addr := BitVec.ofNat 40 addr, access := .read beats }
def writeOf (i : Fin 64) (addr : Nat) (beats : List Beat) : Request :=
  { initiator := i, addr := BitVec.ofNat 40 addr, access := .write (beats.map fullBeat) }

/-- Camera 4 of chapter 12 after the clap: 8 slots of 16 beats, with its two anchors. -/
def camera : Source :=
  { Source.empty with
    state := .live, kind := .camera, initiator := 12, ringBase := 0x800000000, bufferLength := 16, slotCount := 8,
    speedRatio := 2, latency := 1, qualifyCount := 3, rejectLimit := 3, slots := List.replicate 8 Slot.free,
    previous := some { position := 2048, slot := 0 },
    anchors := [{ pc := 300010, position := 2021, base := 0, origin := .slate },
                { pc := 300001, position := 2002, base := 1, origin := .qualify }] }

/-- Sound source 9 of chapter 12 before the clap. -/
def sound : Source :=
  { camera with
    kind := .sound, initiator := 20, ringBase := 0x900000000, slotCount := 16, samplesPerBuffer := 800, speedRatio := 1,
    slots := List.replicate 16 Slot.free, previous := some { position := 13600, slot := 1 },
    anchors := [{ pc := 300002, position := 1600, base := 2, origin := .qualify }] }

/-- Slate 20 of chapter 12. -/
def slate : Source :=
  { camera with
    kind := .slate, initiator := 22, ringBase := 0xA00000000, bufferLength := 1, slotCount := 4, speedRatio := 1,
    latency := 0, slots := List.replicate 4 Slot.free, previous := none, anchors := [] }

/-- A slot that carries the stamp (300,024, 0), FILLING with one beat counted. -/
def filling : Slot :=
  { Slot.free with
    state := .filling, stamp := some { count := 300024, frac := 0 }, beats := 1,
    fill := some { position := 2049, clap := false, roll := false, flags := StampFlags.none, gapSize := 0 } }

/-- The same slot, completed with a kind. -/
def completed (kind : CompletionKind) : Slot := { filling with state := .complete, beats := 16, kind := some kind }

/-- The stage of chapter 12 at rate code 3 in frame 300,025, with camera 4, sound 9 and slate 20 in group 1. -/
def stage : State :=
  { running with
    rate := 3, pc := 300025, phase := 100000, now := 100000,
    sources := ((running.sources.set 4 { camera with group := some 1 }).set 9 { sound with group := some 1 }).set 20
      { slate with group := some 1 } }

/-- Window 0 of section 12.5. -/
def window : Window :=
  { base := 0xB00000000, length := 1024, source := 4, bound := true, speedRatio := 2, mode := .liveDelay, delay := 1,
    cue := none, target := { count := 300024, frac := 0 }, holdLimit := 30000, slugBase := 0xC00000000, slugReported := none }

/-- The stage with window 0 open and slot 1 of camera 4 given. -/
def watched (y : Slot) : State := (stage.putWindow 0 (some window)).putSlot 4 1 y

/-- The entry of a held read of window 0 by initiator 40, with its deadline 810,000 ticks after the read. -/
def heldRead : Held :=
  { request := 7, window := 0, initiator := 40, offset := 64, beats := 15, target := window.target, source := 4, slot := 1,
    deadline := 910000 }

/-- The watched stage with that entry in the list. -/
def holding (y : Slot) : State :=
  { watched y with
    held := [heldRead], nextId := 8, parks := running.parks.set 40 (some 7), outstanding := [Taken.fresh 7 40] }

/-- A redirected read of slot 1 in flight. -/
def pinned (y : Slot) : State :=
  { watched { y with pins := 1 } with
    nextId := 8, outstanding := [Taken.fresh 6 41],
    inFlight := [{ tag := 7, cargo := .redirected 6, addr := 0x800000400, access := .read 16 }],
    redirects := [{ tag := 7, window := 0, initiator := 41, source := 4, slot := 1 }] }

/-- An own write of one beat, joined at the start. -/
def ownWrite (slot : Nat) : OwnWrite := { kind := .statusRecord slot, addr := 0x2800, beats := [fullBeat 0], joined := 0 }

/-! ### Well-formedness: each check refuses -/

theorem smoke_address_not_a_multiple_of_64 : (Instr.requestTaken 0 (readOf 0 32 1)).wf = false := by decide +kernel
theorem smoke_request_of_no_beats : (Instr.requestTaken 0 (readOf 0 64 0)).wf = false := by decide +kernel
theorem smoke_request_of_17_beats : (Instr.requestTaken 0 (readOf 0 64 17)).wf = false := by decide +kernel
theorem smoke_write_of_17_beats : (Instr.requestTaken 0 (writeOf 0 64 (List.replicate 17 0))).wf = false := by decide +kernel
theorem smoke_held_slot_64 : (Instr.heldReadRelease 0 64).wf = false := by decide
theorem smoke_waiting_slot_64 : (Instr.waitingHeaderRelease 0 64).wf = false := by decide
theorem smoke_answer_of_17_beats :
    (Instr.forwardedResponse 0 0 (.okay (List.replicate 17 0))).wf = false ∧
      (Instr.redirectedReadResponse 0 0 (.okay (List.replicate 17 0))).wf = false ∧
      (Instr.slugReadResponse 0 0 (.okay (List.replicate 17 0))).wf = false := by decide
theorem smoke_timecode_field_of_256 :
    (Instr.timecodeWord 0 ⟨256, 0, 0, 0, false⟩).wf = false ∧ (Instr.timecodeWord 0 ⟨0, 256, 0, 0, false⟩).wf = false ∧
      (Instr.timecodeWord 0 ⟨0, 0, 256, 0, false⟩).wf = false ∧ (Instr.timecodeWord 0 ⟨0, 0, 0, 256, false⟩).wf = false := by decide
theorem smoke_ignored_offset_not_a_beat : (Instr.controlWriteIgnored 0 32 0 0).wf = false := by decide
theorem smoke_ignored_offset_past_the_window : (Instr.controlWriteIgnored 0 1048576 0 0).wf = false := by decide
theorem smoke_well_formed_terms_pass :
    (Instr.requestTaken 0 (readOf 0 64 16)).wf = true ∧ (Instr.heldReadRelease 0 63).wf = true ∧
      (Instr.controlWriteIgnored 0 1048512 0 0).wf = true ∧ (Instr.timecodeWord 0 ⟨255, 255, 255, 255, true⟩).wf = true := by
  decide +kernel

/-- No row of the table gives bits, so no word spells a command. -/
theorem test_no_word_spells_a_command : decodeTableWord 8 0x3F = none := by decide

/-! ### Picture-time arithmetic and formats -/

/-- R31: at code 2, F = 1,000,000 is 11:06:40:00; at code 6, F = 4,147,199 is 23:59:59:47. -/
theorem test_labels_without_drop :
    labelOf 2 1000000 = ⟨11, 6, 40, 0⟩ ∧ labelOf 6 4147199 = ⟨23, 59, 59, 47⟩ := by decide +kernel

/-- R32 by hand at code 4: F = 1,799 is 00:00:59:29, F = 1,800 is 00:01:00;02, F = 17,982 is 00:10:00;00. -/
theorem test_labels_with_drop :
    labelOf 4 1799 = ⟨0, 0, 59, 29⟩ ∧ labelOf 4 1800 = ⟨0, 1, 0, 2⟩ ∧ labelOf 4 17982 = ⟨0, 10, 0, 0⟩ := by decide +kernel

/-- R33: 00:01:00;01 names no frame at code 4; section 2.7: 01:00:00;00 is frame-of-day 107,892. -/
theorem test_label_to_frame :
    Label.valid 4 ⟨0, 1, 0, 1⟩ = false ∧ Label.valid 4 ⟨1, 0, 0, 0⟩ = true ∧ Label.frameOfDay 4 ⟨1, 0, 0, 0⟩ = 107892 := by
  decide +kernel

/-- Section 5, "stamps of the three kinds". -/
theorem test_camera_stamps :
    cameraStamp 3 800000 2 7 = ⟨800003, 1⟩ ∧ cameraStamp 3 800000 2 (-6) = ⟨799997, 0⟩ ∧
      cameraStamp 3 800000 2 (-5) = ⟨799997, 1⟩ := by decide +kernel
theorem test_sound_stamps :
    soundStamp 3 .k48 500000 0 20000 = ⟨500012, 781⟩ ∧ soundStamp 3 .k48 510000 0 (-3000) = ⟨509998, 203⟩ := by decide +kernel
theorem test_slate_stamp : slateStamp 1 600000 25000 40000 = ⟨599999, 1110000⟩ := by decide +kernel
theorem test_anchor_selection :
    (selectAnchor camera.anchors 2021).1.pc = 300010 ∧ (selectAnchor camera.anchors 2020).1.pc = 300001 ∧
      (selectAnchor camera.anchors 2001).2 = true := by decide +kernel

/-- Section 12.3: slip −120 with the candidate at 14,533, base 0; slip −1 of the camera. -/
theorem test_sound_pairing :
    (soundPairing 3 sound ⟨300010, 225225⟩ 14400 533).slip = -120 ∧
      (soundPairing 3 sound ⟨300010, 225225⟩ 14400 533).candidate = { pc := 300010, position := 14533, base := 0, origin := .slate } := by
  decide +kernel
theorem test_camera_pairing :
    (cameraPairing 3 { camera with anchors := camera.anchors.drop 1 } 300010 2021).slip = -1 := by decide +kernel

/-- R19, R182: the READY marker 52 45 41 44 59 00 82 00 opens the header beat; byte 9 is the strap value. -/
theorem test_header_beat :
    field (headerBeat .resetLine 5) 0 1 = 0x52 ∧ field (headerBeat .resetLine 5) 6 1 = 0x82 ∧ field (headerBeat .resetLine 5) 8 1 = 2 ∧
      field (headerBeat .resetLine 5) 9 1 = 5 ∧ field (headerBeat .resetLine 5) 16 8 = 5 * 2 ^ 30 := by decide +kernel

/-! ### One step of each command -/

/-- R19: 21 start-up writes, the last at 0x00F00 of the control window that the straps select. -/
theorem test_power_on :
    (after (.powerOn 0 5) stage).ownQueue.length = 21 ∧ (after (.powerOn 0 5) stage).pc = 0 ∧
      (after (.powerOn 0 5) stage).ownQueue.getLast?.map OwnWrite.addr = some (5 * 2 ^ 30 + 0xF00) := by decide +kernel

/-- R18, R27: an assertion of RST_N drops a held read unanswered and pulls FPO low. -/
theorem test_reset_assert :
    (after (.resetAssert 0) { holding filling with fpo := true }).held = [] ∧
      (after (.resetAssert 0) { holding filling with fpo := true }).returned = [] ∧
      (after (.resetAssert 0) { holding filling with fpo := true }).fpo = false := by decide +kernel

/-- R19, R182: the release resets every block, with start kind RESET_LINE. -/
theorem test_reset_release :
    (after (.resetRelease 30 2) { stage with rstn := false }).startKind = .resetLine ∧
      (after (.resetRelease 30 2) { stage with rstn := false }).pc = 0 ∧
      (after (.resetRelease 30 2) { stage with rstn := false }).sources[4].state = .empty := by decide +kernel

/-- R19 step 4: the link opens once all 21 writes are answered, not before. -/
theorem test_system_link_open :
    (after .systemLinkOpen { State.reset with ownQueue := [] }).linkOpen = true ∧
      (after .systemLinkOpen State.reset).linkOpen = false := by decide +kernel

/-- The stage of the example "a capture write split by a waiting header" (chapter 1), with buffers of 4 beats. -/
def splitStage : State :=
  stage.putSource 5
    { camera with
      bufferLength := 4, ringBase := 0xD00000000, initiator := 13, previous := some { position := 2040, slot := 1 },
      slots := [Slot.free, { filling with beats := 2 }, { completed .full with pins := 1 }] ++ List.replicate 5 Slot.free }

/-- Its request of 4 beats: two data beats, a header for the pinned slot, and one beat after it. -/
def splitWrite : Request := writeOf 13 0xD00000180 [0, 0, header 2050 0 0, 0]

/-- Chapter 1, that example: slot 1 completes FULL, slot 2 becomes RECLAIM, the initiator is parked, and the first two beats
go to the store link as one transaction. -/
theorem test_capture_write_split :
    ((after (.requestTaken 0 splitWrite) splitStage).sources[5].slot 1).kind = some .full ∧
      ((after (.requestTaken 0 splitWrite) splitStage).sources[5].slot 2).state = .reclaim ∧
      (after (.requestTaken 0 splitWrite) splitStage).parks[13] = some 0 ∧
      (after (.requestTaken 0 splitWrite) splitStage).stream.map (fun x => (x.addr, x.access.length)) = [(0xD00000180, 2)] := by
  decide +kernel

/-- Section 12.5: a read of window 0 at 200,000 is held with deadline 1,010,000, its initiator parked. -/
theorem test_window_read_held :
    (after (.requestTaken 100000 (readOf 40 0xB00000000 16)) (watched filling)).held.map Held.deadline = [1010000] ∧
      (after (.requestTaken 100000 (readOf 40 0xB00000000 16)) (watched filling)).parks[40] = some 0 := by decide +kernel

/-- R152: with slot 1 COMPLETE FULL the held read becomes a redirected read of the slot at its offset. -/
theorem test_held_read_release :
    (after (.heldReadRelease 4 1) (holding (completed .full))).stream.map (fun x => (x.addr, x.access)) =
        [(0x800000440, .read 15)] ∧
      ((after (.heldReadRelease 4 1) (holding (completed .full))).sources[4].slot 1).pins = 1 ∧
      (after (.heldReadRelease 4 1) (holding (completed .full))).parks[40] = none := by decide +kernel

/-- R154: at the deadline the read goes to the slug buffer, with one HELD_TIMEOUT report. The stage is in HOLDOVER with its
boundary behind it, so that the deadline comes first. -/
theorem test_held_deadline :
    (after (.heldDeadline 40) { holding filling with lock := .locked }).stream.map Transaction.asks =
        [(.slug 7, 0xC00000040, .read 15)] ∧
      (after (.heldDeadline 40) { holding filling with lock := .locked }).producer = 1 ∧
      (after (.heldDeadline 40) { holding filling with lock := .locked }).now = 910000 := by decide +kernel

/-- R13 rules 1 and 3, with the default high mark of 24: 24 entries go before the forwarded stream, 23 do not. -/
theorem test_arbiter_choice :
    (after (.arbiterChoice 0) { pinned filling with ownQueue := List.replicate 24 (ownWrite 0), now := 0, stream := (pinned filling).inFlight }).ownQueue.length = 23 ∧
      (after (.arbiterChoice 0) { pinned filling with ownQueue := List.replicate 23 (ownWrite 0), now := 0, stream := (pinned filling).inFlight }).stream = [] := by
  decide +kernel

/-- R13 rule 2: 20 µs are 540 ticks; at 541 the write is over the age limit. -/
theorem test_age_limit :
    (after .ownWriteAgeLimit { running with ownQueue := [ownWrite 0] }).now = 541 := by decide +kernel

/-- R14: the oldest offered own write joins. -/
theorem test_offered_join :
    (after .offeredWriteJoin { running with ownQueue := List.replicate 31 (ownWrite 0), offered := [ownWrite 1, ownWrite 2] }).offered
        = [ownWrite 2] := by decide +kernel

/-- R6: the beats of a CONTROL WRITE answered OKAY go to the command unit; answered FAULT they do not. -/
def controlWrite : State :=
  { running with
    outstanding := [Taken.fresh 0 1], nextId := 2,
    inFlight := [{ tag := 1, cargo := .control 0, addr := 0x1000, access := .write [fullBeat 5, fullBeat 6] }] }
theorem test_forwarded_response :
    (after (.forwardedResponse 0 1 (.okay [])) controlWrite).inbox.map ControlBeat.offset = [0x1000, 0x1040] ∧
      (after (.forwardedResponse 0 1 (.okay [])) controlWrite).returned = [{ initiator := 1, request := 0, answer := .okay [] }] ∧
      (after (.forwardedResponse 0 1 .fault) controlWrite).inbox = [] := by decide +kernel

/-- Section 12.6: the header for position 2,057 waits on slot 1 of the camera, its request taken in frame 300,029. -/
def waitingHeader : Waiting :=
  { request := 5, initiator := 12, beat := header 2057 0 0, addr := 0x800000400, judgement := .accepted, examinedLive := true, gapSize := 0,
    arrivalPc := 300029, arrivalPhase := 80000, rest := [] }
def waitingStage (pins : Nat) : State :=
  { pinned { filling with state := .reclaim, waiting := some waitingHeader } with
    pc := 300029, parks := running.parks.set 12 (some 5), outstanding := [{ Taken.fresh 5 12 with forming := true }, Taken.fresh 6 41],
    sources := (pinned { filling with state := .reclaim, waiting := some waitingHeader }).sources.set 4
      { camera with slots := camera.slots.set 1 { filling with state := .reclaim, waiting := some waitingHeader, pins := pins } } }

/-- Section 12.6, last row: the slot takes the header with stamp (300,028, 0), 12 is no longer parked, 41 is answered. -/
theorem test_redirected_read_response :
    ((after (.redirectedReadResponse 50000 7 (.okay [])) (waitingStage 1)).sources[4].slot 1).stamp = some ⟨300028, 0⟩ ∧
      (after (.redirectedReadResponse 50000 7 (.okay [])) (waitingStage 1)).parks[12] = none ∧
      (after (.redirectedReadResponse 50000 7 (.okay [])) (waitingStage 1)).returned.map Returned.request = [6] := by decide +kernel

/-- R88, the same release as an event of its own: the slot is FILLING with one beat counted. -/
theorem test_waiting_header_release :
    ((after (.waitingHeaderRelease 4 1) (waitingStage 0)).sources[4].slot 1).state = .filling ∧
      ((after (.waitingHeaderRelease 4 1) (waitingStage 0)).sources[4].slot 1).beats = 1 := by decide +kernel

/-- A CLOSING camera with nothing left, its SOURCE_CLOSE PENDING in slot 3, a record of slot 3 having collided. -/
def closing : State :=
  { stage.putSource 4 { camera with state := .closing, group := some 1 } with
    slots := running.slots.set 3 (.pending (command 7 [(8, 1, 4)]) true),
    windows := running.windows.set 0 (some window) }

/-- R81, R139 and the example "a collision": EMPTY, its window LOST, the command DONE. -/
theorem test_source_becomes_empty :
    (after (.sourceBecomesEmpty 4) closing).sources[4] = Source.empty ∧ (after (.sourceBecomesEmpty 4) closing).slots[3] = .done ∧
      (after (.sourceBecomesEmpty 4) closing).windows[0].map Window.bound = some false := by decide +kernel

/-- R149: the answer of a slug read is the answer of the WINDOW read. -/
def slugInFlight : State :=
  { watched filling with
    outstanding := [Taken.fresh 6 41], nextId := 8,
    inFlight := [{ tag := 7, cargo := .slug 6, addr := 0xC00000000, access := .read 1 }] }
theorem test_slug_read_response :
    (after (.slugReadResponse 0 7 (.okay [9])) slugInFlight).returned = [{ initiator := 41, request := 6, answer := .okay [9] }] := by
  decide +kernel

/-- R17, R179: an own write answered FAULT makes one report, and OKAY none. -/
def ownInFlight : State := { running with inFlightOwn := [{ tag := 2, write := ownWrite 5 }], nextId := 3 }
theorem test_own_write_response :
    (after (.ownWriteResponse 0 2 false) ownInFlight).producer = 1 ∧ (after (.ownWriteResponse 0 2 true) ownInFlight).producer = 0 := by
  decide +kernel

/-- Section 2.7: the preset to day 2, 01:00:00;00 at code 4. -/
def presetStage : State :=
  { running with
    rate := 4, pc := 5278816, preset := some { day := 2, label := ⟨1, 0, 0, 0⟩, slot := 3 },
    slots := running.slots.set 3 (.pending (command 2 []) false),
    sources := running.sources.set 9 { sound with anchors := [{ pc := 5270000, position := 1000000, base := 0, origin := .qualify }] } }
theorem test_preset_boundary :
    (after .frameBoundary presetStage).pc = 5286708 ∧ (after .frameBoundary presetStage).slots[3] = .done ∧
      (after .frameBoundary presetStage).sources[9].anchors.map Anchor.pc = [5277891] := by decide +kernel

/-- Chapter 3, "a ONCE jam": the run of four words ending 10:00:00:03 gives the count 3,060,004, and the mode goes OFF. -/
def jamStage : State :=
  { running with
    rate := 2, pc := 2660000, jamMode := .once, jamRun := some { length := 4, offset := 0, last := ⟨10, 0, 0, 3⟩ } }
theorem test_jam_boundary :
    (after .frameBoundary jamStage).pc = 3060004 ∧ (after .frameBoundary jamStage).jamMode = .off := by decide +kernel

/-- R27: FPO falls 27 ticks after its boundary. -/
theorem test_fpo_fall :
    (after .fpoFall { running with fpo := true }).fpo = false ∧ (after .fpoFall { running with fpo := true }).now = 27 := by
  decide +kernel

/-- R135: a train of two pulses of 1 ms: after the first high part the line is low for 27,000 ticks. -/
def train : Train := { width := 1, count := 2, pulse := 1, high := true, partEnd := 27000 }
def marked (x : Train) : State := running.putMarker 2 { Marker.initial with trigger := .command, train := some x }
theorem test_marker_part_end :
    (after (.markerPartEnd 2) (marked train)).markers[2].train = some { train with high := false, partEnd := 54000 } ∧
      (after (.markerPartEnd 2) (marked { train with pulse := 2 })).markers[2].train = none := by decide +kernel

/-- Chapter 3, "lock with a skipped boundary": the pulse at 9,400,000, 400,000 after the last boundary. -/
def locking (offset : Int) : State :=
  { running with
    lock := .acquire, refEnable := true, ref := { RefFields.initial with phaseOffset := offset }, now := 9400000, phase := 400000,
    acqRun := some { previous := 8275000, good := 7 } }
theorem test_ref_pulse_locks :
    (after (.refPulse 0) (locking 0)).lock = .locked ∧ (after (.refPulse 0) (locking 0)).scheduled = [] ∧
      (after (.refPulse 0) (locking 32767)).scheduled = [] := by decide +kernel

/-- The same with 562,473 ticks since the last boundary: an offset of 27 reaches half the period of 562,500. -/
theorem test_ref_pulse_schedules :
    (after (.refPulse 0) { locking 27 with phase := 562473 }).scheduled = [9400027] ∧
      (after (.refPulse 0) { locking 26 with phase := 562473 }).scheduled = [] := by decide +kernel

/-- R45, R47: the attempt fails at previous + 1,125,000 + 270; at the limit the reference is disabled. -/
theorem test_acquire_deadline :
    (after .acquireDeadline { locking 0 with attempts := 2, phase := 0 }).attempts = 3 ∧
      (after .acquireDeadline { locking 0 with attempts := 3, phase := 0 }).lock = .free ∧
      (after .acquireDeadline { locking 0 with attempts := 3, phase := 0 }).refEnable = false := by decide +kernel

/-- Section 12.8: the coarse deadline 1,013,512. -/
def locked : State := { running with rate := 3, lock := .locked, refEnable := true, lastUsed := some 0 }
theorem test_missing_pulse :
    (after .missingPulse locked).lock = .holdover ∧ (after .missingPulse locked).now = 1013512 := by decide +kernel

/-- Chapter 3, "a ONCE jam": the second word joins the run. -/
theorem test_timecode_word :
    (after (.timecodeWord 0 ⟨10, 0, 0, 4, false⟩) jamStage).jamRun.map (fun x => (x.length, x.last)) = some (5, ⟨10, 0, 0, 4⟩) ∧
      (after (.timecodeWord 0 ⟨10, 0, 0, 6, false⟩) jamStage).jamRun.map JamRun.length = some 1 := by decide +kernel

/-- Chapter 9, "masked writes and a merged write-back": S4 with high mark 16 masked in, S5 with tail limit 0 refused. -/
def settingBeat (n value mask : Nat) : Beat := pack [(8 * n, 4, value), (8 * n + 4, 4, mask)]
def givenSetting (n value mask : Nat) : State :=
  { running with inbox := [{ offset := 0x1000, data := settingBeat n value mask, enables := wordEnables n }] }
theorem test_settings_write :
    (after (.settingsWrite 0 (settingBeat 4 16 0xFF) (wordEnables 4)) (givenSetting 4 16 0xFF)).settings[4] = 0x1410#32 ∧
      (after (.settingsWrite 0 (settingBeat 5 0 0xFF) (wordEnables 5)) (givenSetting 5 0 0xFF)).settings[5] = 0x0C08#32 ∧
      (after (.settingsWrite 0 (settingBeat 5 0 0xFF) (wordEnables 5)) (givenSetting 5 0 0xFF)).producer = 1 := by decide +kernel

/-- Chapter 10, "a full ring and its recovery": 50,000 is accepted, 45,000 after it is ignored. -/
def ring (consumer v : Nat) : State :=
  { running with
    producer := 55359, consumer := consumer, inbox := [{ offset := 0x3000, data := pack [(0, 8, v)], enables := 0xFF#64 }] }
theorem test_consumer_write :
    (after (.consumerWrite 0 (pack [(0, 8, 50000)]) 0xFF#64) (ring 40000 50000)).consumer = 50000 ∧
      (after (.consumerWrite 0 (pack [(0, 8, 45000)]) 0xFF#64) (ring 50000 45000)).consumer = 50000 := by decide +kernel

/-- R159: a beat of a command slot with a byte not enabled is taken as nothing. -/
def partialRecord : State := { running with inbox := [{ offset := 0x2000, data := command 20 [], enables := allEnables - 1 }] }
theorem test_control_write_ignored :
    (after (.controlWriteIgnored 0 0x2000 (command 20 []) (allEnables - 1)) partialRecord).inbox = [] ∧
      (after (.controlWriteIgnored 0 0x2000 (command 20 []) (allEnables - 1)) partialRecord).slots[0] = .idle := by decide +kernel

/-- R168, R29: another rate becomes pending; result word 1 is the rate in effect. -/
def timebaseRecord (rate divider : Nat) : Beat := command 1 [(8, 1, rate), (9, 1, divider), (12, 1, 8), (13, 1, 4), (14, 2, 270)]
theorem test_timebase_set :
    (after (.timebaseSet 0 3 (timebaseRecord 4 1)) (given running (timebaseRecord 4 1))).pendingRate = some 4 ∧
      (after (.timebaseSet 0 3 (timebaseRecord 0 2)) (given running (timebaseRecord 0 2))).slots[3] = .refused := by decide +kernel

/-- Section 2.7: the preset is PENDING; with the drop flag clear at code 4 it is refused (R33). -/
def presetRecord (drop : Nat) : Beat := command 2 [(8, 2, 2), (10, 1, 1), (14, 1, drop)]
theorem test_time_preset :
    (after (.timePreset 0 3 (presetRecord 1)) (given { running with rate := 4 } (presetRecord 1))).preset.map Preset.label = some ⟨1, 0, 0, 0⟩ ∧
      (after (.timePreset 0 3 (presetRecord 0)) (given { running with rate := 4 } (presetRecord 0))).slots[3] = .refused := by decide +kernel

/-- R62: the run is emptied; a run length of 1 is out of range. -/
def jamRecord (mode length : Nat) : Beat := command 3 [(8, 1, mode), (9, 1, length)]
theorem test_jam_mode :
    (after (.jamMode 0 3 (jamRecord 2 15)) (given jamStage (jamRecord 2 15))).jamMode = .continuous ∧
      (after (.jamMode 0 3 (jamRecord 2 15)) (given jamStage (jamRecord 2 15))).jamRun = none ∧
      (after (.jamMode 0 3 (jamRecord 2 1)) (given jamStage (jamRecord 2 1))).slots[3] = .refused := by decide +kernel

/-- R53: enabling clears the attempt counter and leaves FREE; disabling in LOCKED goes to FREE. -/
theorem test_reference_enable :
    (after (.referenceEnable 0 3 (command 4 [(8, 1, 1)])) (given { running with attempts := 4 } (command 4 [(8, 1, 1)]))).refEnable = true ∧
      (after (.referenceEnable 0 3 (command 4 [(8, 1, 1)])) (given { running with attempts := 4 } (command 4 [(8, 1, 1)]))).attempts = 0 := by
  decide +kernel
theorem test_reference_disable :
    (after (.referenceDisable 0 3 (command 4 [])) (given locked (command 4 []))).lock = .free ∧
      (after (.referenceDisable 0 3 (command 4 [])) (given locked (command 4 []))).eventFlags.lockChange = true := by decide +kernel

/-- R67: QUALIFYING with its slots; a second source of the same initiator is refused (R66 check 4). -/
def openRecord (initiator : Nat) : Beat :=
  command 5 [(8, 1, 6), (9, 1, 1), (10, 1, initiator), (32, 8, 0xE00000000), (40, 4, 16), (44, 1, 8), (45, 1, 2), (46, 1, 1)]
theorem test_source_open :
    (after (.sourceOpen 0 3 (openRecord 14)) (given stage (openRecord 14))).sources[6].state = .qualifying ∧
      (after (.sourceOpen 0 3 (openRecord 14)) (given stage (openRecord 14))).sources[6].qualifyCount = 16 ∧
      (after (.sourceOpen 0 3 (openRecord 12)) (given stage (openRecord 12))).slots[3] = .refused := by decide +kernel

/-- R77, R91: a pinned slot becomes RECLAIM; an EMPTY source is refused. -/
theorem test_source_requalify :
    (after (.sourceRequalify 0 3 (command 6 [(8, 1, 4)])) (given (pinned (completed .full)) (command 6 [(8, 1, 4)]))).sources[4].state = .qualifying ∧
      ((after (.sourceRequalify 0 3 (command 6 [(8, 1, 4)])) (given (pinned (completed .full)) (command 6 [(8, 1, 4)]))).sources[4].slot 1).state = .reclaim ∧
      (after (.sourceRequalify 0 3 (command 6 [])) (given stage (command 6 []))).slots[3] = .refused := by decide +kernel

/-- R79, R81: with a pin the source stays CLOSING and the command PENDING; without one it is EMPTY at once. -/
theorem test_source_close :
    (after (.sourceClose 0 3 (command 7 [(8, 1, 4)])) (given (pinned (completed .full)) (command 7 [(8, 1, 4)]))).sources[4].state = .closing ∧
      (after (.sourceClose 0 3 (command 7 [(8, 1, 4)])) (given stage (command 7 [(8, 1, 4)]))).sources[4].state = .empty := by decide +kernel

/-- R121: the monitor is set; an edge of 0 is out of range. -/
def lateRecord (edge : Nat) : Beat := command 8 [(8, 1, 4), (9, 1, 2), (10, 1, edge), (11, 1, 1)]
theorem test_late_monitor :
    (after (.lateMonitor 0 3 (lateRecord 2)) (given stage (lateRecord 2))).sources[4].lateMonitor =
        { threshold := 2, edge := .leave, on := true, late := false } ∧
      (after (.lateMonitor 0 3 (lateRecord 0)) (given stage (lateRecord 0))).slots[3] = .refused := by decide +kernel

/-- R107: the anchor stands first, of origin COMMAND; a slate is refused. -/
def anchorRecord (n : Nat) : Beat := command 9 [(8, 1, n), (9, 1, 3), (16, 8, 400000), (24, 8, 123456)]
theorem test_anchor_set :
    (after (.anchorSet 0 3 (anchorRecord 4)) (given stage (anchorRecord 4))).sources[4].anchors.head? =
        some { pc := 400000, position := 123456, base := 3, origin := .command } ∧
      (after (.anchorSet 0 3 (anchorRecord 20)) (given stage (anchorRecord 20))).slots[3] = .refused := by decide +kernel

/-- R98: set while no source is QUALIFYING or LIVE, refused on the stage. -/
def indexRecord : Beat := command 10 [(8, 4, 4096), (16, 8, 0xF00000000)]
theorem test_index_set :
    (after (.indexSet 0 3 indexRecord) (given running indexRecord)).indexRing = some { base := 0xF00000000, capacity := 4096 } ∧
      (after (.indexSet 0 3 indexRecord) (given stage indexRecord)).slots[3] = .refused := by decide +kernel

/-- Section 12.2: group 1 with members 4, 9 and 20. -/
def groupRecord : Beat := command 11 [(8, 1, 1), (12, 4, 2 ^ 4 + 2 ^ 9 + 2 ^ 20)]
def ungrouped : State := { stage with sources := ((running.sources.set 4 camera).set 9 sound).set 20 slate }
theorem test_group_set :
    (after (.groupSet 0 3 groupRecord) (given ungrouped groupRecord)).members 1 = [4, 9, 20] := by decide +kernel

/-- Section 12.4: TAKE_ARM of group 1 at 300,020; at that boundary it rolls take 1. -/
def armRecord : Beat := command 12 [(8, 1, 1), (9, 1, 1), (16, 8, 300020)]
def armNow : Beat := command 12 [(8, 1, 1), (9, 1, 3)]
def armed : Group := { Group.initial with state := .armed, rollMode := .atTime, requestedRoll := 300020 }
theorem test_take_arm :
    (after (.takeArm 0 3 armRecord) (given stage armRecord)).groups[1] = armed ∧
      (after .frameBoundary ({ stage with pc := 300019 }.putGroup 1 armed)).groups[1].rollCount = 300020 ∧
      (after .frameBoundary ({ stage with pc := 300019 }.putGroup 1 armed)).groups[1].take = 1 := by decide +kernel

/-- R125 (log entry 48): an arm without AT_TIME leaves the requested roll count as it was. -/
theorem test_take_arm_now :
    (after (.takeArm 0 3 armNow) (given (stage.putGroup 1 { Group.initial with requestedRoll := 5 }) armNow)).groups[1] =
      { armed with rollMode := .now, requestedRoll := 5, rollDue := true } := by decide +kernel

/-- Section 12.7: TAKE_STOP at 300,040 is PENDING; the boundary to 300,048 ends the take at tail 8. -/
def rolling : Group := { Group.initial with state := .rolling, take := 1, rollCount := 300020 }
def stopping : Group :=
  { rolling with state := .stopping, stopCount := some 300040, stopCommand := some 3, awaited := [9], tail := 7 }
def stopRecord : Beat := command 13 [(8, 1, 1), (16, 8, 300040)]
theorem test_take_stop :
    (after (.takeStop 0 3 stopRecord) (given (stage.putGroup 1 rolling) stopRecord)).groups[1].stopCount = some 300040 ∧
      (after .frameBoundary ({ stage with pc := 300047 }.putGroup 1 stopping)).groups[1].ended =
        some { take := 1, rollCount := 300020, endCount := 300048 } := by decide +kernel

/-- R131: an ARMED group is disarmed without an entry; a ROLLING one ends with one. -/
def abandonRecord : Beat := command 14 [(8, 1, 1)]
theorem test_take_abandon :
    (after (.takeAbandon 0 3 abandonRecord) (given (stage.putGroup 1 armed) abandonRecord)).indexSeq = 0 ∧
      (after (.takeAbandon 0 3 abandonRecord) (given (stage.putGroup 1 rolling) abandonRecord)).indexSeq = 1 ∧
      (after (.takeAbandon 0 3 abandonRecord) (given (stage.putGroup 1 rolling) abandonRecord)).groups[1].state = .idle := by decide +kernel

/-- Section 12.5: window 0 on camera 4 with delay 1 targets (300,024, 0); a base that is no multiple of 4,096 is refused. -/
def windowRecord (base : Nat) : Beat :=
  command 15 [(8, 1, 0), (9, 1, 4), (10, 1, 1), (11, 1, 1), (12, 2, 30000), (16, 8, base), (24, 8, 0xC00000000)]
theorem test_window_open :
    (after (.windowOpen 0 3 (windowRecord 0xB00000000)) (given stage (windowRecord 0xB00000000))).windows[0] = some window ∧
      (after (.windowOpen 0 3 (windowRecord 0xB00000040)) (given stage (windowRecord 0xB00000040))).slots[3] = .refused := by decide +kernel

/-- Chapter 8, "slow motion from a cue", at speed ratio 2: the boundaries give (700,000, 1) and then (700,001, 0). -/
def cueRecord : Beat := command 16 [(8, 1, 0), (10, 1, 3), (32, 8, 700000)]
theorem test_window_cue :
    (after (.windowCue 0 3 cueRecord) (given (watched filling) cueRecord)).windows[0].map Window.target = some ⟨700000, 0⟩ ∧
      ({ window with mode := .cueRoll, target := ⟨700000, 0⟩ }.retarget 3 300026) = ⟨700000, 1⟩ ∧
      ({ window with mode := .cueRoll, target := ⟨700000, 1⟩ }.retarget 3 300026) = ⟨700001, 0⟩ := by decide +kernel

/-- R143: the held read is answered with slug and the window is CLOSED. -/
theorem test_window_close :
    (after (.windowClose 0 3 (command 17 [])) (given (holding filling) (command 17 []))).windows[0] = none ∧
      (after (.windowClose 0 3 (command 17 [])) (given (holding filling) (command 17 []))).stream.map Transaction.asks =
        [(.slug 7, 0xC00000040, .read 15)] := by decide +kernel

/-- R136: SET replaces width and count; with bits FIRE and STOP the train ends. -/
def markerRecord (parts trigger width count : Nat) : Beat :=
  command 18 [(8, 1, 2), (9, 1, parts), (10, 1, trigger), (12, 1, count), (14, 2, width)]
theorem test_marker_set :
    (after (.markerSet 0 3 (markerRecord 1 5 250 7)) (given (marked train) (markerRecord 1 5 250 7))).markers[2] =
        { trigger := .frame, width := 250, count := 7, train := some train } ∧
      (after (.markerSet 0 3 (markerRecord 1 5 251 7)) (given (marked train) (markerRecord 1 5 251 7))).slots[3] = .refused := by decide +kernel
theorem test_marker_fire :
    (after (.markerFire 10 3 (markerRecord 2 0 0 0)) (given (marked train) (markerRecord 2 0 0 0))).markers[2].train =
        some { width := 1, count := 1, pulse := 1, high := true, partEnd := 27010 } ∧
      (after (.markerFire 10 3 (markerRecord 2 0 0 0)) (given running (markerRecord 2 0 0 0))).markers[2].train = none := by decide +kernel
theorem test_marker_stop :
    (after (.markerStop 0 3 (markerRecord 6 0 0 0)) (given (marked train) (markerRecord 6 0 0 0))).markers[2].train = none := by decide +kernel

/-- R170: WINDOW is cleared and COMMAND_DONE set by the completion; naming COMMAND_DONE leaves it clear. -/
def flagged : State := { running with eventFlags := { EventFlags.clear with window := true, commandDone := true } }
def ackRecord (flags : Nat) : Beat := command 19 [(8, 1, flags)]
theorem test_attention_ack :
    (after (.attentionAck 0 3 (ackRecord 0x40)) (given flagged (ackRecord 0x40))).eventFlags = { EventFlags.clear with commandDone := true } ∧
      (after (.attentionAck 0 3 (ackRecord 0xC0)) (given flagged (ackRecord 0xC0))).eventFlags = EventFlags.clear := by decide +kernel

/-- R180, R183 (log entry 49): with its report off, an ATTENTION_ACK that names COMMAND_DONE alone, which is clear, changes no
flag and rewrites nothing but the status record. -/
theorem test_attention_ack_of_done :
    let quiet : State := { running with settings := running.settings.set 1 0 }
    ((after (.attentionAck 0 3 (ackRecord 0x80)) (given quiet (ackRecord 0x80))).ownQueue.map OwnWrite.kind) = [.statusRecord 3] := by
  decide +kernel

/-- R171 to R173: with no read in flight the drain ends at the taking; with one it begins. -/
theorem test_restart :
    (after (.restart 0 3 (command 20 [])) (given stage (command 20 []))).sources[4] = Source.empty ∧
      (after (.restart 0 3 (command 20 [])) (given stage (command 20 []))).startKind = .restart ∧
      (after (.restart 0 3 (command 20 [])) (given (pinned filling) (command 20 []))).drain = some 3 := by decide +kernel

/-- R167: codes 0 and 21 name no command. -/
theorem test_command_unknown :
    (after (.commandUnknown 0 3 (command 21 [])) (given running (command 21 []))).slots[3] = .refused ∧
      (after (.commandUnknown 0 3 (command 0 [])) (given running (command 0 []))).slots[3] = .refused := by decide +kernel

/-- R173: the drain ends once the redirect table is empty. -/
def draining : State := { stage with drain := some 3, slots := running.slots.set 3 (.pending (command 20 []) false) }
theorem test_restart_drain_end :
    (after .restartDrainEnd draining).drain = none ∧ (after .restartDrainEnd draining).slots[3] = .done ∧
      (after .restartDrainEnd draining).eventFlags = { EventFlags.clear with commandDone := true } := by decide +kernel

/-- Chapter 9, "a collision": the PENDING SOURCE_CLOSE keeps its record and is marked. -/
def pendingClose : State := { stage with slots := running.slots.set 3 (.pending (command 7 [(8, 1, 4)]) false) }
theorem test_collision :
    (after (.collision 0 3 armRecord) (given pendingClose armRecord)).slots[3] = .pending (command 7 [(8, 1, 4)]) true ∧
      (after (.collision 0 3 armRecord) (given pendingClose armRecord)).groups[1] = Group.initial := by decide +kernel

/-! ### The hypotheses of the statements are met -/

theorem ready_iff (s : State) (r : Request) :
    s.Ready r ↔ s.Calm ∧ r.wf = true ∧ s.linkOpen = true ∧ s.ownQueue.length < 32 ∧ s.parks[r.initiator] = none ∧
      ∀ q ∈ s.presented, q.initiator ≠ r.initiator :=
  ⟨fun h => ⟨h.calm, h.wf, h.link, h.room, h.unparked, h.alone⟩, fun h => ⟨h.1, h.2.1, h.2.2.1, h.2.2.2.1, h.2.2.2.2.1, h.2.2.2.2.2⟩⟩

theorem witness_StepRunsFrontCommand :
    ({ stage with pending := [.fpoFall, .refPulse 5] } : State).pending = .fpoFall :: [.refPulse 5] ∧ State.reset.pending = [] := ⟨rfl, rfl⟩

theorem witness_StartsResetEveryBlock : ({ stage with rstn := false } : State).rstn = false ∧ stage.rstn = true ∧
    (startUpWrites .restart 15 9).length = 21 ∧ (startUpWrites .restart 15 9).head?.isSome = true := by decide +kernel

theorem witness_ResetLineAbandons : (holding filling).rstn = true ∧ ({ stage with rstn := false } : State).rstn = false ∧
    (∀ dt cwb, Instr.fpoFall ≠ .powerOn dt cwb) ∧ (∀ dt cwb, Instr.fpoFall ≠ .resetRelease dt cwb) ∧
    (∀ dt r, Instr.fpoFall ≠ .requestTaken dt r) ∧ (readOf 40 64 1).wf = true :=
  ⟨rfl, rfl, (by intro _ _ h; cases h), (by intro _ _ h; cases h), (by intro _ _ h; cases h), by decide +kernel⟩

/-- A start that waits for its last answer, and one with an answer of FAULT. -/
def starting : State := { State.reset with ownQueue := [], inFlightOwn := [{ tag := 2, write := startUpWrite 0 0 0xF00 [0] }] }
def startedWithFault : State := { State.reset with ownQueue := [], startupFaults := [{ write := startUpWrite 0 0 0xF00 [0], pc := 0 }] }
theorem witness_SystemLinkOpens :
    ({ State.reset with ownQueue := [] } : State).Calm ∧
    ({ State.reset with ownQueue := [] } : State).linkOpen = false ∧
    ({ State.reset with ownQueue := [] } : State).startUpUnanswered = false ∧
    startedWithFault.Calm ∧
    startedWithFault.startUpUnanswered = false ∧
    startedWithFault.startupFaults = [{ write := startUpWrite 0 0 0xF00 [0], pc := 0 }] ∧
    State.reset.Calm ∧
    State.reset.startUpUnanswered = true ∧
    running.Calm ∧
    running.linkOpen = true ∧
    starting.Calm ∧
    starting.linkOpen = false ∧
    starting.inFlightOwn = [{ tag := 2, write := startUpWrite 0 0 0xF00 [0] }] ∧
    (startUpWrite 0 0 0xF00 [0]).kind.isStartUp = true ∧
    starting.ownQueue = [] ∧
    starting.offered = [] ∧
    starting.startupFaults = [] := by
  simp only [State.Calm]
  decide +kernel

/-- R4, R5: the classes at the boundaries of the areas, on the watched stage with the control window at 5 GiB: the last beat
of the address space and one past it; the last beat of the control window and a straddle of it; the same of window 0; the last
beat of camera 4's ring by its own and by another initiator, a read of it, and a write that runs out of it. -/
def classStage : State := { watched filling with cwb := 5 }
theorem test_classes :
    classStage.classify (readOf 40 (2 ^ 40 - 64) 1) = .plain ∧
      classStage.classify (readOf 40 (2 ^ 40 - 64) 2) = .refused ∧
      classStage.classify (readOf 40 (5 * 2 ^ 30 + 2 ^ 20 - 64) 1) = .control ∧
      classStage.classify (readOf 40 (5 * 2 ^ 30 + 2 ^ 20 - 64) 2) = .refused ∧
      classStage.classify (readOf 40 (5 * 2 ^ 30 + 2 ^ 20) 1) = .plain ∧
      classStage.classify (readOf 40 (0xB00000400 - 64) 1) = .window 0 ∧
      classStage.classify (readOf 40 (0xB00000400 - 64) 2) = .refused ∧
      classStage.classify (readOf 40 0xB00000400 1) = .plain ∧
      classStage.classify (writeOf 12 0x800001FC0 [0]) = .capture 4 ∧
      classStage.classify (writeOf 13 0x800001FC0 [0]) = .plain ∧
      classStage.classify (readOf 12 0x800001FC0 1) = .plain ∧
      classStage.classify (writeOf 12 0x800001FC0 [0, 0]) = .plain := by decide +kernel

theorem witness_RequestForwardedOrRefused_class :
    2 ^ 40 < (readOf 40 (2 ^ 40 - 64) 2).addr.toNat + 64 * (readOf 40 (2 ^ 40 - 64) 2).access.length ∧
    (readOf 40 (2 ^ 40 - 64) 1).addr.toNat + 64 * (readOf 40 (2 ^ 40 - 64) 1).access.length ≤ 2 ^ 40 ∧
    classStage.cwb.toNat * 2 ^ 30 + 2 ^ 20 = (readOf 40 (5 * 2 ^ 30 + 2 ^ 20 - 64) 1).addr.toNat + 64 ∧
    classStage.windows[0] = some window ∧
    (∀ w : Fin 8, w ≠ 0 → classStage.windows[w] = none) ∧
    (readOf 40 (0xB00000400 - 64) 1).addr.toNat + 64 = window.base + window.length ∧
    (readOf 40 (0xB00000400 - 64) 2).addr.toNat < window.base + window.length ∧
    window.base + window.length < (readOf 40 (0xB00000400 - 64) 2).addr.toNat + 64 * 2 ∧
    (writeOf 12 0x800001FC0 [0]).access.isWrite = true ∧
    classStage.sources[4].state = .live ∧ classStage.sources[4].initiator = 12 ∧
    (writeOf 12 0x800001FC0 [0]).addr.toNat + 64 =
      classStage.sources[4].ringBase + classStage.sources[4].slotCount * classStage.sources[4].bufferLength * 64 ∧
    (∀ n : Fin 32, n ≠ 4 → classStage.sources[n].state = .empty ∨ classStage.sources[n].initiator ≠ 12) := by decide +kernel

/-- The last beat of the control window, and the first after it. -/
theorem witness_RequestForwardedOrRefused_forwarded :
    stage.Ready (readOf 1 0xFFFC0 1) ∧
    stage.classify (readOf 1 0xFFFC0 1) = .control ∧
    stage.Ready (readOf 1 0x100000 16) ∧
    stage.classify (readOf 1 0x100000 16) = .plain := by
  simp only [ready_iff, State.Calm]
  decide +kernel

/-- A straddle, a request past the end of the address space, a WINDOW WRITE; with no earlier request of the initiator, and with one that has no answer. -/
theorem witness_RequestForwardedOrRefused_refused :
    stage.Ready (readOf 1 0xFFFC0 2) ∧
    stage.IdLaw ∧
    stage.classify (readOf 1 0xFFFC0 2) = .refused ∧
    stage.classify (readOf 1 0xFFFFFFFFC0 2) = .refused ∧
    stage.outstanding = [] ∧
    (watched filling).Ready (writeOf 1 0xB00000000 [0]) ∧
    (watched filling).IdLaw ∧
    (watched filling).classify (writeOf 1 0xB00000000 [0]) = .window 0 ∧
    (writeOf 1 0xB00000000 [0]).access.isWrite = true ∧
    (watched filling).drain = none ∧
    (holding filling).Ready (readOf 41 0xFFFC0 2) ∧
    ({ holding filling with parks := running.parks } : State).Ready (readOf 40 0xFFFC0 2) ∧
    ({ holding filling with parks := running.parks } : State).IdLaw ∧
    ({ holding filling with parks := running.parks } : State).outstanding = [Taken.fresh 7 40] := by
  simp only [ready_iff, State.Calm, State.IdLaw]
  decide +kernel

/-- A read at its boundaries: redirected with 31 and with 32 entries in the table, held with 15 in the list. -/
def crowded (n : Nat) (y : Slot) : State := { watched y with redirects := List.replicate n { tag := 99, window := 0, initiator := 1, source := 4, slot := 2 } }
def crowdedList (n : Nat) (y : Slot) : State := { watched y with held := List.replicate n heldRead }
def windowRead : Request := readOf 40 0xB00000000 16
theorem witness_ChosenSlotAndOutcome :
    chooseSlot window.target 0 [Slot.free] = none ∧
    chooseSlot window.target 0 [completed .full, filling] = some (0, 2049) ∧
    ({ window with bound := false } : Window).bound = false ∧
    window.bound = true ∧
    (watched filling).sources[4].state = .live ∧
    chooseSlot window.target 0 (watched (completed .full)).sources[4].slots = some (1, 2049) ∧
    ((watched (completed .full)).sources[4].slot 1).state = .complete ∧
    ((watched filling).sources[4].slot 1).state = .filling ∧
    (crowdedList 15 filling).held.length < 16 ∧
    16 ≤ (crowdedList 16 filling).held.length ∧
    chooseSlot window.target 0 (watched { filling with state := .reclaim }).sources[4].slots = none ∧
    (∃ y ∈ (watched { filling with state := .reclaim }).sources[4].slots, y.state = .reclaim ∧ y.stamp = some window.target) ∧
    chooseSlot window.target 0 stage.sources[4].slots = none ∧
    (∀ y ∈ stage.sources[4].slots, y.state = .reclaim → y.stamp ≠ some window.target) := by
  decide +kernel

theorem witness_WindowReadTaken_redirectedOrHeld :
    (crowded 31 (completed .full)).Ready windowRead ∧
    (crowded 31 (completed .full)).drain = none ∧
    (crowded 31 (completed .full)).classify windowRead = .window 0 ∧
    (crowded 31 (completed .full)).windows[0] = some window ∧
    windowRead.access = .read 16 ∧
    (crowded 31 (completed .full)).readOutcome window = .redirect 1 ∧
    (crowded 31 (completed .full)).redirects.length < 32 ∧
    (crowded 31 (completed .full)).presented = [] ∧
    (crowdedList 15 filling).Ready windowRead ∧
    (crowdedList 15 filling).classify windowRead = .window 0 ∧
    (crowdedList 15 filling).readOutcome window = .hold 1 ∧
    (crowded 32 (completed .full)).Ready windowRead ∧
    (crowded 32 (completed .full)).readOutcome window = .redirect 1 ∧
    32 ≤ (crowded 32 (completed .full)).redirects.length := by
  simp only [ready_iff, State.Calm]
  decide +kernel

/-- Three reads of one slot, of which the one of 41 began waiting first; one entry of the table has become free. -/
def queued : State :=
  { crowded 31 (completed .full) with presented := [readOf 42 0xB00000000 1, readOf 41 0xB00000000 1], waiting := [41, 42] }
theorem witness_WindowReadTaken_waiting :
    queued.Ready windowRead ∧
    queued.drain = none ∧
    queued.classify windowRead = .window 0 ∧
    queued.windows[0] = some window ∧
    queued.readOutcome window = .redirect 1 ∧
    readOf 41 0xB00000000 1 ∈ queued.presented ∧
    queued.waitOrder = [41, 42] ∧
    queued.couldTake (readOf 41 0xB00000000 1) = true ∧
    queued.waitOrder = [] ++ (readOf 41 0xB00000000 1).initiator :: [42] ∧
    queued.waitOrder = [41] ++ (readOf 42 0xB00000000 1).initiator :: [] ∧
    (readOf 42 0xB00000000 1).initiator ∉ ([41] : List (Fin 64)) ∧
    ({ queued with parks := running.parks.set 41 (some 0), waiting := [41] } : State).couldTake (readOf 41 0xB00000000 1) = false := by
  simp only [ready_iff, State.Calm]
  decide +kernel

/-- R146: the read that began waiting first is taken first, though the other is presented before it; and a read that
arrives does not go ahead of them. -/
theorem test_reads_in_the_order_of_their_waiting :
    (after (.requestTaken 0 (readOf 42 0xB00000000 1)) queued).redirects.length = 31 ∧
      (after (.requestTaken 0 windowRead) queued).presented.length = 3 ∧
      (after (.requestTaken 0 (readOf 41 0xB00000000 1)) queued).redirects.length = 32 ∧
      (after (.requestTaken 0 (readOf 41 0xB00000000 1)) queued).presented.map Request.initiator = [42] := by decide +kernel

/-- R2: a request presented while RST_N is low stays presented. -/
theorem test_request_while_reset :
    (after (.requestTaken 5 windowRead) { stage with rstn := false }).presented = [windowRead] ∧
      (after (.resetRelease 5 0) (after (.requestTaken 5 windowRead) { stage with rstn := false })).presented = [windowRead] := by
  decide +kernel

theorem witness_WindowReadTaken_slug :
    (watched Slot.free).Ready windowRead ∧
    (watched Slot.free).drain = none ∧
    (watched Slot.free).classify windowRead = .window 0 ∧
    (watched Slot.free).windows[0] = some window ∧
    (watched Slot.free).readOutcome window = .slug .noSlot ∧
    window.slugReported ≠ some window.target ∧
    ((watched Slot.free).putWindow 0 (some { window with slugReported := some window.target })).Ready windowRead ∧
    (watched Slot.free).readOutcome { window with slugReported := some window.target } = .slug .noSlot ∧
    (crowdedList 16 filling).Ready windowRead ∧
    (crowdedList 16 filling).readOutcome window = .listFull := by
  simp only [ready_iff, State.Calm]
  decide +kernel

/-- A header of camera 4 for slot 1, and a data beat of it. -/
def headerWrite (b : Beat) : Request := writeOf 12 0x800000400 [b]
def dataWrite : Request := writeOf 12 0x800000440 [0]
def cameraIn (st : SourceState) : State := stage.putSource 4 { camera with state := st }
def qualifying (run : Nat) : Source := { camera with state := .qualifying, run := run, anchors := [], previous := some { position := 2048, slot := 0 } }

/-- That no beat of a write is a header candidate, and that all are data beats of a slot, from checks of a finite list. -/
theorem noHeader_of {x : Source} {addr : Nat} {bs : List WriteBeat}
    (h : ∀ k, k < bs.length → ∀ b ∈ bs, x.headerAt (addr + 64 * k) b = false) :
    ∀ k b, bs[k]? = some b → x.headerAt (addr + 64 * k) b = false :=
  fun k _ hb => h k (List.getElem?_eq_some_iff.1 hb).1 _ (List.mem_of_getElem? hb)
theorem dataBeats_of {x : Source} {addr i : Nat} {bs : List WriteBeat}
    (h : ∀ k, k < bs.length → (x.place (addr + 64 * k)).1 = i ∧ ∀ b ∈ bs, x.headerAt (addr + 64 * k) b = false) :
    x.DataBeats addr i bs :=
  fun k _ hb =>
    have hk := h k (List.getElem?_eq_some_iff.1 hb).1
    ⟨hk.1, hk.2 _ (List.mem_of_getElem? hb)⟩

/-- Data beats; and a write of the last two data beats of slot 1 of camera 4, with more after them. With 13 beats counted they
leave the slot FILLING at its boundary, with 14 they fill it. -/
def dataBeats (n : Nat) : List WriteBeat := List.replicate n (fullBeat 1)
def lastBeats (more : List WriteBeat) : Request :=
  { initiator := 12, addr := BitVec.ofNat 40 0x800000780, access := .write (dataBeats 2 ++ more) }
theorem lastBeats_of_slot_1 : camera.DataBeats 0x800000780 1 (dataBeats 2) := dataBeats_of (by decide +kernel)
theorem whole_buffer_of_slot_1 : camera.DataBeats 0x800000440 1 (dataBeats 14) := dataBeats_of (by decide +kernel)
theorem beat_of_slot_2 : camera.DataBeats 0x800000840 2 (dataBeats 1) := dataBeats_of (by decide +kernel)

theorem witness_CaptureBeatsPassed_several :
    (∀ k b, (dataBeats 2)[k]? = some b → camera.headerAt (0x800000780 + 64 * k) b = false) ∧
    (watched { filling with beats := 13 }).Ready (lastBeats []) ∧
    (watched { filling with beats := 13 }).IdLaw ∧
    (watched { filling with beats := 13 }).classify (lastBeats []) = .capture 4 ∧
    (watched { filling with beats := 13 }).sources[4].state = .live ∧
    (watched { filling with beats := 13 }).sources[4].fillingSlot = some 1 ∧
    (watched { filling with beats := 13 }).sources[4].fillingCount = 1 ∧
    ((List.range 2).countP fun k => (camera.place (0x800000780 + 64 * k)).1 == 1) = 2 ∧
    13 + 2 < (watched { filling with beats := 13 }).sources[4].bufferLength ∧
    (∀ y ∈ (watched (completed .full)).sources[4].slots, y.state ≠ .filling) ∧
    (cameraIn .faulted).Ready (lastBeats [fullBeat 0, fullBeat 1]) ∧
    (cameraIn .faulted).classify (lastBeats [fullBeat 0, fullBeat 1]) = .capture 4 ∧
    camera.headerAt 0x800000800 (fullBeat 0) = true ∧
    camera.headerAt 0x800000840 (fullBeat 1) = false ∧
    (cameraIn .closing).Ready (lastBeats [fullBeat 0, fullBeat 1]) := by
  refine ⟨noHeader_of (by decide +kernel), ?_⟩
  simp only [ready_iff, State.Calm, State.IdLaw]
  decide +kernel

theorem witness_CaptureBeatsPassed_one :
    (cameraIn .faulted).Ready (headerWrite 0) ∧
    (cameraIn .faulted).IdLaw ∧
    (cameraIn .faulted).classify (headerWrite 0) = .capture 4 ∧
    (headerWrite 0).access = .write [fullBeat 0] ∧
    (cameraIn .faulted).sources[4].state = .faulted ∧
    ((cameraIn .faulted).sources[4].place 0x800000400).2 = 0 ∧
    (fullBeat 0).enables = allEnables ∧
    (cameraIn .faulted).classify dataWrite = .capture 4 ∧
    ((cameraIn .faulted).sources[4].place 0x800000440).2 ≠ 0 ∧
    (cameraIn .closing).Ready dataWrite ∧
    (cameraIn .closing).classify dataWrite = .capture 4 ∧
    (cameraIn .closing).sources[4].state = .closing ∧
    (watched { filling with beats := 14 }).Ready dataWrite ∧
    (watched { filling with beats := 14 }).classify dataWrite = .capture 4 ∧
    (watched { filling with beats := 14 }).sources[4].state = .live ∧
    ((watched { filling with beats := 14 }).sources[4].slot 1).beats + 1 < (watched { filling with beats := 14 }).sources[4].bufferLength ∧
    ((watched { filling with beats := 14 }).sources[4].slot 1).state = .filling ∧
    ((watched (completed .full)).sources[4].slot 1).state ≠ .filling ∧
    (watched (completed .full)).classify dataWrite = .capture 4 := by
  simp only [ready_iff, State.Calm, State.IdLaw]
  decide +kernel

theorem witness_HeaderTakesSlot :
    (watched (completed .full)).Ready (headerWrite (header 2049 0 0)) ∧
    (watched (completed .full)).IdLaw ∧
    (watched (completed .full)).classify (headerWrite (header 2049 0 0)) = .capture 4 ∧
    (headerWrite (header 2049 0 0)).access = .write [fullBeat (header 2049 0 0)] ∧
    ((watched (completed .full)).sources[4].place 0x800000400) = (1, 0) ∧
    (watched (completed .full)).sources[4].fillingSlot = none ∧
    2 ≤ (watched (completed .full)).sources[4].bufferLength ∧
    ((watched (completed .full)).sources[4].slot 1).pins = 0 ∧
    camera.check (header 2049 0 0) = .accepted ∧
    headerClap (header 2049 0 0) = false ∧
    headerRoll (header 2049 0 0) = false ∧
    camera.lateMonitor.on = false ∧
    (2 : Int) < camera.lateness 3 300090 300024 ∧
    ({ camera with lateMonitor := { threshold := 2, edge := .enter, on := true, late := false } } : Source).lateAfter 3 ≠
      ({ camera with lateMonitor := { threshold := 2, edge := .enter, on := true, late := false } } : Source).lateMonitor ∧
    ({ camera with lateMonitor := { threshold := 3, edge := .both, on := true, late := false } } : Source).lateAfter 3 =
      ({ camera with lateMonitor := { threshold := 3, edge := .both, on := true, late := false } } : Source).lateMonitor ∧
    camera.check (header 2048 0 0) = .rejected .order ∧
    camera.check 0 = .rejected .lead ∧
    ({ camera with rejects := 1 } : Source).rejects + 1 < camera.rejectLimit ∧
    ({ qualifying 1 with rejects := 1 } : Source).rejects ≠ 0 ∧
    (stage.putSource 4 (qualifying 1)).Ready (headerWrite (header 2049 0 0)) ∧
    (stage.putSource 4 (qualifying 1)).classify (headerWrite (header 2049 0 0)) = .capture 4 ∧
    (qualifying 1).check (header 2049 0 0) = .accepted ∧
    (if (qualifying 1).continues 1 2049 then (qualifying 1).run + 1 else 1) < (qualifying 1).qualifyCount := by
  simp only [ready_iff, State.Calm, State.IdLaw]
  decide +kernel

/-- R69: camera 4 with a take key and two identity bytes compared; a header that fails no check, and one for each check that
fails it and no earlier one (the ORDER check at the previous position itself). -/
def keyed : Source := { camera with takeKey := some 5, matchMask := 0x81, identity := 0x1122334455667788#64 }
def keyedHeader (lead identity position key : Nat) : Beat := pack [(0, 8, lead), (8, 8, identity), (16, 8, position), (32, 8, key)]
theorem test_header_checks :
    keyed.check (keyedHeader leadPattern.toNat 0x1100000000000088 2049 5) = .accepted ∧
      keyed.check (keyedHeader (leadPattern.toNat + 1) 0 0 0) = .rejected .lead ∧
      keyed.check (keyedHeader leadPattern.toNat 0x1000000000000088 0 0) = .rejected .identity ∧
      keyed.check (keyedHeader leadPattern.toNat 0x1100000000000088 2048 6) = .rejected .key ∧
      keyed.check (keyedHeader leadPattern.toNat 0x1100000000000088 2048 5) = .rejected .order ∧
      ({ keyed with state := .qualifying } : Source).check (keyedHeader leadPattern.toNat 0x1100000000000088 2048 5) = .accepted := by
  decide +kernel
theorem witness_HeaderTakesSlot_checks :
    keyed.state = .live ∧
    (List.range 8).map (fun i => field (keyedHeader leadPattern.toNat 0x1100000000000088 2049 5) i 1) =
      [0xA6, 0x59, 0xA6, 0x59, 0x5A, 0x95, 0x5A, 0x95] ∧
    (List.range 8).map (fun i => field (keyedHeader (leadPattern.toNat + 1) 0 0 0) i 1) ≠
      [0xA6, 0x59, 0xA6, 0x59, 0x5A, 0x95, 0x5A, 0x95] ∧
    (∀ i, i < 8 → keyed.matchMask.getLsbD i = true →
      field (keyedHeader leadPattern.toNat 0x1100000000000088 2049 5) (8 + i) 1 = (keyed.identity.extractLsb' (8 * i) 8).toNat) ∧
    keyed.matchMask.getLsbD 7 = true ∧
    field (keyedHeader leadPattern.toNat 0x1000000000000088 0 0) 15 1 ≠ (keyed.identity.extractLsb' 56 8).toNat ∧
    keyed.takeKey = some 5 ∧
    field (keyedHeader leadPattern.toNat 0x1100000000000088 2048 6) 32 8 ≠ 5 ∧
    field (keyedHeader leadPattern.toNat 0x1100000000000088 2048 5) 32 8 = 5 ∧
    keyed.previous = some { position := 2048, slot := 0 } ∧
    ¬(2048 : Nat) < field (keyedHeader leadPattern.toNat 0x1100000000000088 2048 5) 16 8 ∧
    (2048 : Nat) < field (keyedHeader leadPattern.toNat 0x1100000000000088 2049 5) 16 8 := by decide +kernel

/-- A header and the 14 data beats of its slot after it: at the boundary of a buffer of 16. -/
def headerAndData (b : Beat) : Request :=
  { initiator := 12, addr := BitVec.ofNat 40 0x800000400, access := .write (fullBeat b :: dataBeats 14) }
theorem witness_HeaderTakesSlot_rest :
    (watched (completed .full)).sources[4].DataBeats (0x800000400 + 64) 1 (dataBeats 14) ∧
    (watched (completed .full)).Ready (headerAndData (header 2049 0 0)) ∧
    (watched (completed .full)).classify (headerAndData (header 2049 0 0)) = .capture 4 ∧
    (watched (completed .full)).sources[4].headerAt 0x800000400 (fullBeat (header 2049 0 0)) = true ∧
    (dataBeats 14).length + 2 ≤ (watched (completed .full)).sources[4].bufferLength := by
  refine ⟨whole_buffer_of_slot_1, ?_⟩
  simp only [ready_iff, State.Calm]
  decide +kernel

/-- A camera two rejects in, with the limit at three; the same QUALIFYING. -/
def rejecting (st : SourceState) : State :=
  stage.putSource 4 { camera with state := st, rejects := 2, slots := camera.slots.set 1 (completed .full), group := some 1 }
theorem witness_RejectLimitReached :
    (rejecting .live).Ready (headerWrite (header 2048 0 0)) ∧
    (rejecting .live).IdLaw ∧
    (rejecting .live).classify (headerWrite (header 2048 0 0)) = .capture 4 ∧
    (headerWrite (header 2048 0 0)).access = .write [fullBeat (header 2048 0 0)] ∧
    (rejecting .live).sources[4].place 0x800000400 = (1, 0) ∧
    (rejecting .live).sources[4].fillingSlot = none ∧
    2 ≤ (rejecting .live).sources[4].bufferLength ∧
    (rejecting .live).HeldLaw ∧
    ((rejecting .live).sources[4].slot 1).pins = 0 ∧
    1 < (rejecting .live).sources[4].slots.length ∧
    (rejecting .live).sources[4].check (header 2048 0 0) = .rejected .order ∧
    (rejecting .live).sources[4].rejectLimit ≤ (rejecting .live).sources[4].rejects + 1 ∧
    (rejecting .live).sources[4].state = .live ∧
    (rejecting .live).sources[4].group = some 1 ∧
    (rejecting .live).groups[1].state = .idle ∧
    (rejecting .qualifying).Ready (headerWrite 0) ∧
    (rejecting .qualifying).classify (headerWrite 0) = .capture 4 ∧
    (rejecting .qualifying).sources[4].check 0 = .rejected .lead ∧
    (rejecting .qualifying).sources[4].state = .qualifying := by
  simp only [ready_iff, State.Calm, State.IdLaw, State.HeldLaw]
  decide +kernel

/-- The laws of the memory path from checks that a finite state decides. -/
theorem pathLaw_of {s : State}
    (h : s.EmptyLaw ∧ s.InitiatorLaw ∧ s.FillingLaw ∧ s.ReclaimLaw ∧ s.PinLaw ∧ s.ClosingLaw ∧ s.HeldLaw ∧ s.HeldApart ∧ s.ParkLaw ∧
      s.DrainLaw)
    (hw : ∀ n : Fin 32, (s.sources[n].slots.filter fun y => y.waiting.isSome).length ≤ 1 ∧
      ∀ y ∈ s.sources[n].slots, y.waiting.all (fun w => decide (y.state = .reclaim ∧ w.initiator = s.sources[n].initiator ∧
        s.parks[w.initiator] = some w.request ∧ s.sources[n].fillingCount = 0 ∧ ∀ e ∈ s.held, e.initiator ≠ w.initiator)) = true)
    (hp : ∀ n : Fin 32, s.sources[n].slots.length ≤ 16 ∧ (∀ y ∈ s.sources[n].slots, y.state = .free → y.pins = 0) ∧
      ∀ i : Fin 16, (s.sources[n].slot i).pins = (s.redirects.filter fun e => e.source == n && e.slot == i.val).length)
    (hr : (∀ e ∈ s.redirects, e.slot < 16 ∧ e.tag < s.nextId) ∧ (s.redirects.map Redirect.tag).Nodup) : s.PathLaw := by
  obtain ⟨h1, h2, h3, h4, h5, h6, h7, h8, h9, h10⟩ := h
  refine ⟨h1, h2, h3, h4, h5, ?_, h6, ?_, h7, h8, h9, h10⟩
  · refine fun _ => ⟨fun n i => ?_, fun n => (hp n).2.1, hr.2, fun e he => (hr.1 e he).2⟩
    by_cases hi : i < 16
    · exact (hp n).2.2 ⟨i, hi⟩
    · have free : s.sources[n].slot i = Slot.free := by
        rw [Source.slot, List.getD_eq_getElem?_getD,
          List.getElem?_eq_none (Nat.le_trans (hp n).1 (Nat.le_of_not_lt hi))]
        rfl
      have unnamed : (s.redirects.filter fun e => e.source == n && e.slot == i) = [] :=
        List.filter_eq_nil_iff.2 fun e he h => by
          have := (hr.1 e he).1
          simp only [Bool.and_eq_true, beq_iff_eq] at h
          omega
      rw [free, unnamed]
      rfl
  · refine fun _ n => ⟨(hw n).1, fun y hy w h => ?_⟩
    have := (hw n).2 y hy
    simpa [h] using this

/-- Camera 4 with buffers of one beat. -/
def oneBeat (st : SourceState) : State := stage.putSource 4 { camera with state := st, bufferLength := 1, run := 0 }
def oneBeatHeader : Request := writeOf 12 0x800000040 [header 2049 0 0]

theorem path_holding_last : (holding { filling with beats := 15 }).PathLaw :=
  pathLaw_of
    ⟨by unfold State.EmptyLaw; decide +kernel, by unfold State.InitiatorLaw; decide +kernel, by unfold State.FillingLaw; decide +kernel,
      by unfold State.ReclaimLaw; decide +kernel, by unfold State.PinLaw; decide +kernel, by unfold State.ClosingLaw; decide +kernel,
      by unfold State.HeldLaw; decide +kernel, by unfold State.HeldApart; decide +kernel, by unfold State.ParkLaw; decide +kernel,
      by unfold State.DrainLaw; decide +kernel⟩
    (by decide +kernel) (by decide +kernel) (by decide +kernel)
theorem path_holding : (holding filling).PathLaw :=
  pathLaw_of
    ⟨by unfold State.EmptyLaw; decide +kernel, by unfold State.InitiatorLaw; decide +kernel, by unfold State.FillingLaw; decide +kernel,
      by unfold State.ReclaimLaw; decide +kernel, by unfold State.PinLaw; decide +kernel, by unfold State.ClosingLaw; decide +kernel,
      by unfold State.HeldLaw; decide +kernel, by unfold State.HeldApart; decide +kernel, by unfold State.ParkLaw; decide +kernel,
      by unfold State.DrainLaw; decide +kernel⟩
    (by decide +kernel) (by decide +kernel) (by decide +kernel)
theorem path_oneBeat (st : SourceState) (h : st = .live ∨ st = .qualifying) : (oneBeat st).PathLaw := by
  rcases h with rfl | rfl <;>
  exact pathLaw_of
    ⟨by unfold State.EmptyLaw; decide +kernel, by unfold State.InitiatorLaw; decide +kernel, by unfold State.FillingLaw; decide +kernel,
      by unfold State.ReclaimLaw; decide +kernel, by unfold State.PinLaw; decide +kernel, by unfold State.ClosingLaw; decide +kernel,
      by unfold State.HeldLaw; decide +kernel, by unfold State.HeldApart; decide +kernel, by unfold State.ParkLaw; decide +kernel,
      by unfold State.DrainLaw; decide +kernel⟩
    (by decide +kernel) (by decide +kernel) (by decide +kernel)

/-- The last data beat of a buffer; the next header for the slot that is FILLING, whose held read then pins it, and for the
slot after it; a header of a one-beat buffer. -/
theorem witness_SlotCompletes_full :
    (holding { filling with beats := 15 }).Ready dataWrite ∧
    (holding { filling with beats := 15 }).IdLaw ∧
    (holding { filling with beats := 15 }).classify dataWrite = .capture 4 ∧
    (holding { filling with beats := 15 }).sources[4].state = .live ∧
    ((holding { filling with beats := 15 }).sources[4].place 0x800000440).2 ≠ 0 ∧
    ((holding { filling with beats := 15 }).sources[4].slot 1).state = .filling ∧
    (holding { filling with beats := 15 }).sources[4].bufferLength ≤ 15 + 1 := by
  simp only [ready_iff, State.Calm, State.IdLaw]
  decide +kernel
theorem witness_SlotCompletes_short :
    (holding filling).Ready (headerWrite (header 2057 0 0)) ∧
    (holding filling).Ready (writeOf 12 0x800000800 [header 2057 0 0]) ∧
    (holding filling).classify (headerWrite (header 2057 0 0)) = .capture 4 ∧
    (holding filling).classify (writeOf 12 0x800000800 [header 2057 0 0]) = .capture 4 ∧
    (holding filling).sources[4].fillingSlot = some 1 ∧
    (holding filling).sources[4].place 0x800000400 = (1, 0) ∧
    (holding filling).sources[4].place 0x800000800 = (2, 0) ∧
    2 < (holding filling).sources[4].slots.length ∧
    0 < ((holding filling).sources[4].slot 1).pins + ((holding filling).redirectable 4 1).length ∧
    ((holding filling).sources[4].slot 2).pins = 0 := by
  simp only [ready_iff, State.Calm]
  decide +kernel
/-- Camera 4 with 14 beats of slot 1 counted and a held read on it; the same with slot 2 pinned by a redirected read. -/
def nearlyFull : State := holding { filling with beats := 14 }
def nearlyFullPinned : State :=
  { nearlyFull.putSlot 4 2 { completed .full with pins := 1, stamp := some { count := 300000, frac := 0 } } with
    redirects := [{ tag := 6, window := 0, initiator := 41, source := 4, slot := 2 }] }
theorem path_nearlyFull : nearlyFull.PathLaw :=
  pathLaw_of
    ⟨by unfold State.EmptyLaw; decide +kernel, by unfold State.InitiatorLaw; decide +kernel, by unfold State.FillingLaw; decide +kernel,
      by unfold State.ReclaimLaw; decide +kernel, by unfold State.PinLaw; decide +kernel, by unfold State.ClosingLaw; decide +kernel,
      by unfold State.HeldLaw; decide +kernel, by unfold State.HeldApart; decide +kernel, by unfold State.ParkLaw; decide +kernel,
      by unfold State.DrainLaw; decide +kernel⟩
    (by decide +kernel) (by decide +kernel) (by decide +kernel)
theorem path_nearlyFullPinned : nearlyFullPinned.PathLaw :=
  pathLaw_of
    ⟨by unfold State.EmptyLaw; decide +kernel, by unfold State.InitiatorLaw; decide +kernel, by unfold State.FillingLaw; decide +kernel,
      by unfold State.ReclaimLaw; decide +kernel, by unfold State.PinLaw; decide +kernel, by unfold State.ClosingLaw; decide +kernel,
      by unfold State.HeldLaw; decide +kernel, by unfold State.HeldApart; decide +kernel, by unfold State.ParkLaw; decide +kernel,
      by unfold State.DrainLaw; decide +kernel⟩
    (by decide +kernel) (by decide +kernel) (by decide +kernel)

/-- The last two beats of slot 1, alone; with the header of slot 2 and a beat after it; and with slot 2 pinned. -/
def nextHeader : List WriteBeat := fullBeat (header 2057 0 0) :: dataBeats 1
theorem witness_SlotCompletes_lead :
    nearlyFull.sources[4].DataBeats 0x800000780 1 (dataBeats 2) ∧
    nearlyFull.sources[4].DataBeats (0x800000780 + 64 * 2 + 64) 2 (dataBeats 1) ∧
    nearlyFull.Ready (lastBeats []) ∧
    nearlyFull.IdLaw ∧
    nearlyFull.classify (lastBeats []) = .capture 4 ∧
    nearlyFull.sources[4].state = .live ∧
    nearlyFull.sources[4].fillingSlot = some 1 ∧
    (nearlyFull.sources[4].slot 1).beats + (dataBeats 2).length = nearlyFull.sources[4].bufferLength ∧
    nearlyFull.Ready (lastBeats nextHeader) ∧
    nearlyFull.classify (lastBeats nextHeader) = .capture 4 ∧
    nearlyFull.sources[4].headerAt (0x800000780 + 64 * 2) (fullBeat (header 2057 0 0)) = true ∧
    nearlyFull.sources[4].check (header 2057 0 0) = .accepted ∧
    headerClap (header 2057 0 0) = false ∧
    (nearlyFull.sources[4].place (0x800000780 + 64 * 2)).1 = 2 ∧
    2 < nearlyFull.sources[4].slots.length ∧
    (nearlyFull.sources[4].slot 2).pins = 0 ∧
    (dataBeats 1).length + 2 ≤ nearlyFull.sources[4].bufferLength ∧
    nearlyFullPinned.Ready (lastBeats nextHeader) ∧
    nearlyFullPinned.IdLaw ∧
    nearlyFullPinned.classify (lastBeats nextHeader) = .capture 4 ∧
    0 < (nearlyFullPinned.sources[4].slot 2).pins := by
  refine ⟨lastBeats_of_slot_1, beat_of_slot_2, ?_⟩
  simp only [ready_iff, State.Calm, State.IdLaw]
  decide +kernel

/-- R8, R11: the last beats, the next header and its data beat go as one part of 4 beats, and the held read joins behind it;
with slot 2 pinned the part is of 2 beats, and the header waits with its data beat. -/
theorem test_request_over_two_slots :
    (after (.requestTaken 0 (lastBeats nextHeader)) nearlyFull).stream.map (fun x => (x.addr, x.access.length)) =
        [(0x800000780, 4), (0x800000440, 15)] ∧
      ((after (.requestTaken 0 (lastBeats nextHeader)) nearlyFull).sources[4].slot 2).beats = 2 ∧
      (after (.requestTaken 0 (lastBeats nextHeader)) nearlyFullPinned).stream.map (fun x => (x.addr, x.access.length)) =
        [(0x800000780, 2), (0x800000440, 15)] ∧
      ((after (.requestTaken 0 (lastBeats nextHeader)) nearlyFullPinned).sources[4].slot 2).waiting.map Waiting.rest =
        some (dataBeats 1) := by decide +kernel

theorem witness_SlotCompletes_one_beat :
    (oneBeat .live).Ready oneBeatHeader ∧
    (oneBeat .live).IdLaw ∧
    (oneBeat .live).classify oneBeatHeader = .capture 4 ∧
    (oneBeat .live).sources[4].place 0x800000040 = (1, 0) ∧
    (oneBeat .live).sources[4].fillingSlot = none ∧
    (oneBeat .live).sources[4].bufferLength = 1 ∧
    (oneBeat .live).sources[4].check (header 2049 0 0) = .accepted ∧
    (oneBeat .qualifying).Ready oneBeatHeader ∧
    (oneBeat .qualifying).classify oneBeatHeader = .capture 4 ∧
    (oneBeat .qualifying).sources[4].state = .qualifying ∧
    (oneBeat .qualifying).sources[4].check (header 2049 0 0) = .accepted ∧
    (if (oneBeat .qualifying).sources[4].continues 1 2049 then (oneBeat .qualifying).sources[4].run + 1 else 1) <
      (oneBeat .qualifying).sources[4].qualifyCount := by
  simp only [ready_iff, State.Calm, State.IdLaw]
  decide +kernel

/-- The clap of section 12.3: the match of group 1 at the point (300,010, 225,225), with camera 4 and sound 9 expected. -/
def clapMatch : ClapMatch :=
  { point := { count := 300010, frac := 225225 }, slate := 20, remaining := 12, expected := [(4, false), (9, false)] }
def clapped : State :=
  { stage with claps := stage.claps.set 1 (some clapMatch) }
def clapStage (n : Fin 32) (x : Source) : State := { clapped with sources := stage.sources.set n { x with group := some 1 } }
def soundBefore : Source := { sound with previous := some { position := 13600, slot := 0 } }
def cameraBefore : Source :=
  { camera with previous := some { position := 2020, slot := 0 }, anchors := [{ pc := 300001, position := 2002, base := 1, origin := .qualify }] }
def soundClap : Request := writeOf 20 0x900000400 [header 14400 1 533]
def cameraClap : Request := writeOf 12 0x800000400 [header 2021 1 0]
def slateClap : Request := writeOf 22 0xA00000000 [header 5 1 0]

/-- Section 12.3: the sound member's slip is −120, so that its candidate at 14,533 is adopted with a report; the camera's
is −1, adopted without one; the slate's record opens a match. -/
theorem test_clap :
    ((after (.requestTaken 0 soundClap) (clapStage 9 soundBefore)).sources[9].anchors =
        [{ pc := 300010, position := 14533, base := 0, origin := .slate },
         { pc := 300002, position := 1600, base := 2, origin := .qualify }] ∧
      (after (.requestTaken 0 soundClap) (clapStage 9 soundBefore)).producer = 1) ∧
    ((after (.requestTaken 0 cameraClap) (clapStage 4 cameraBefore)).sources[4].anchors.length = 2 ∧
      (after (.requestTaken 0 cameraClap) (clapStage 4 cameraBefore)).producer = 0) ∧
    (after (.requestTaken 0 slateClap) stage).claps[1] =
      some { point := { count := 300025, frac := 100000 }, slate := 20, remaining := 12, expected := [(4, false), (9, false)] } := by
  decide +kernel

theorem witness_ClapOpensAndPairs :
    (clapStage 9 soundBefore).Ready soundClap ∧
    (clapStage 4 cameraBefore).Ready cameraClap ∧
    stage.Ready slateClap ∧
    stage.IdLaw ∧
    (clapStage 9 soundBefore).classify soundClap = .capture 9 ∧
    (clapStage 4 cameraBefore).classify cameraClap = .capture 4 ∧
    stage.classify slateClap = .capture 20 ∧
    soundBefore.place 0x900000400 = (1, 0) ∧
    cameraBefore.place 0x800000400 = (1, 0) ∧
    slate.place 0xA00000000 = (0, 0) ∧
    soundBefore.fillingSlot = none ∧
    slate.fillingSlot = none ∧
    soundBefore.check (header 14400 1 533) = .accepted ∧
    cameraBefore.check (header 2021 1 0) = .accepted ∧
    slate.check (header 5 1 0) = .accepted ∧
    headerClap (header 14400 1 533) = true ∧
    headerRoll (header 5 1 0) = false ∧
    slate.bufferLength = 1 ∧
    stage.sources[4].group = some 1 ∧
    (9, false) ∈ clapMatch.expected ∧
    soundBefore.lateMonitor.on = false ∧
    (slate.slot 0).pins = 0 ∧
    400 ≤ (14933 : Word64).toNat := by
  simp only [ready_iff, State.Calm, State.IdLaw]
  decide +kernel

theorem witness_QualifiedSourceGoesLive :
    (stage.putSource 4 (qualifying 2)).Ready (headerWrite (header 2049 0 0)) ∧
    (stage.putSource 4 (qualifying 2)).IdLaw ∧
    (stage.putSource 4 (qualifying 2)).classify (headerWrite (header 2049 0 0)) = .capture 4 ∧
    ((qualifying 2).place 0x800000400) = (1, 0) ∧
    (qualifying 2).fillingSlot = none ∧
    2 ≤ (qualifying 2).bufferLength ∧
    (qualifying 2).kind ≠ .slate ∧
    (qualifying 2).anchors = [] ∧
    (qualifying 2).check (header 2049 0 0) = .accepted ∧
    headerClap (header 2049 0 0) = false ∧
    1 < (qualifying 2).slots.length ∧
    ((qualifying 2).slot 1).pins = 0 ∧
    (qualifying 2).qualifyCount ≤ (if (qualifying 2).continues 1 2049 then (qualifying 2).run + 1 else 1) := by
  simp only [ready_iff, State.Calm, State.IdLaw]
  decide +kernel

/-- A slate one header short of its qualify count. -/
def qualifyingSlate : State :=
  stage.putSource 20 { slate with state := .qualifying, run := 2, previous := some { position := 4, slot := 3 }, group := some 1 }
theorem witness_QualifiedSourceGoesLive_slate :
    qualifyingSlate.Ready (writeOf 22 0xA00000000 [header 5 3 0]) ∧
    qualifyingSlate.IdLaw ∧
    qualifyingSlate.HeldLaw ∧
    qualifyingSlate.classify (writeOf 22 0xA00000000 [header 5 3 0]) = .capture 20 ∧
    qualifyingSlate.sources[20].place 0xA00000000 = (0, 0) ∧
    qualifyingSlate.sources[20].fillingSlot = none ∧
    qualifyingSlate.sources[20].bufferLength = 1 ∧
    qualifyingSlate.sources[20].state = .qualifying ∧
    qualifyingSlate.sources[20].kind = .slate ∧
    qualifyingSlate.sources[20].check (header 5 3 0) = .accepted ∧
    0 < qualifyingSlate.sources[20].slots.length ∧
    (qualifyingSlate.sources[20].slot 0).pins = 0 ∧
    qualifyingSlate.sources[20].qualifyCount ≤
      (if qualifyingSlate.sources[20].continues 0 5 then qualifyingSlate.sources[20].run + 1 else 1) := by
  simp only [ready_iff, State.Calm, State.IdLaw, State.HeldLaw]
  decide +kernel

/-- R72, R74 (log entry 37): that header makes the slate LIVE and is stamped, and opens no match; with the slate LIVE it does. -/
theorem test_clap_of_a_qualifying_slate :
    (after (.requestTaken 0 (writeOf 22 0xA00000000 [header 5 3 0])) qualifyingSlate).sources[20].state = .live ∧
      (after (.requestTaken 0 (writeOf 22 0xA00000000 [header 5 3 0])) qualifyingSlate).sources[20].lastStamp.isSome = true ∧
      (after (.requestTaken 0 (writeOf 22 0xA00000000 [header 5 3 0])) qualifyingSlate).claps[1] = none ∧
      (after (.requestTaken 0 (writeOf 22 0xA00000000 [header 5 3 0])) stage).claps[1].isSome = true := by decide +kernel

theorem witness_HeaderWaitsOnPinnedSlot :
    (pinned (completed .full)).Ready (headerWrite (header 2057 0 0)) ∧
    (pinned (completed .full)).IdLaw ∧
    (pinned (completed .full)).classify (headerWrite (header 2057 0 0)) = .capture 4 ∧
    ((pinned (completed .full)).sources[4].place 0x800000400) = (1, 0) ∧
    (pinned (completed .full)).sources[4].fillingSlot = none ∧
    (pinned (completed .full)).sources[4].state = .live ∧
    (pinned (completed .full)).sources[4].check (header 2057 0 0) = .accepted ∧
    0 < ((pinned (completed .full)).sources[4].slot 1).pins := by
  simp only [ready_iff, State.Calm, State.IdLaw]
  decide +kernel

/-- The same behind two data beats of slot 0, with no slot FILLING, and with a rest. -/
def waitingAfterData : Request :=
  { initiator := 12, addr := BitVec.ofNat 40 0x800000380, access := .write (dataBeats 2 ++ nextHeader) }
theorem witness_HeaderWaitsOnPinnedSlot_lead :
    (∀ k c, (dataBeats 2)[k]? = some c → camera.headerAt (0x800000380 + 64 * k) c = false) ∧
    (pinned (completed .full)).Ready waitingAfterData ∧
    (pinned (completed .full)).classify waitingAfterData = .capture 4 ∧
    camera.headerAt (0x800000380 + 64 * 2) (fullBeat (header 2057 0 0)) = true ∧
    (camera.place (0x800000380 + 64 * 2)).1 = 1 := by
  refine ⟨noHeader_of (by decide +kernel), ?_⟩
  simp only [ready_iff, State.Calm]
  decide +kernel

/-- A state in which the arbiter chooses: a number of own writes, and a forwarded transaction. -/
def choosing (n : Nat) : State := { pinned filling with now := 540, phase := 540, ownQueue := List.replicate n (ownWrite 0), stream := (pinned filling).inFlight }
theorem witness_OwnWritesIssuedAndAnswered_choice :
    (choosing 24).Calm ∧
    (choosing 24).QueueLaw ∧
    1 ≤ (choosing 24).highMark ∧
    (choosing 24).ownQueue = ownWrite 0 :: List.replicate 23 (ownWrite 0) ∧
    (choosing 24).highMark ≤ (choosing 24).ownQueue.length ∧
    (choosing 24).offered = [] ∧
    (choosing 23).Calm ∧
    (choosing 23).QueueLaw ∧
    (choosing 23).stream = (pinned filling).inFlight.headD { tag := 0, cargo := .plain 0, addr := 0, access := .read 1 } :: [] ∧
    (choosing 23).ownQueue.length < (choosing 23).highMark ∧
    (∀ w ∈ (choosing 23).ownQueue.head?, ((choosing 23).wait 0).now - w.joined ≤ (choosing 23).ageLimit * 27) ∧
    (choosing 23).ageLimit * 27 < ((choosing 23).wait 1).now - (ownWrite 0).joined ∧
    ({ choosing 32 with offered := [ownWrite 1] } : State).QueueLaw ∧
    running.Calm ∧
    running.ownQueue = [] ∧
    running.stream = [] ∧
    ({ running with ownQueue := [ownWrite 0] } : State).Due (({ running with ownQueue := [ownWrite 0] } : State).ageDue) 541 ∧
    ({ choosing 31 with offered := [ownWrite 1] } : State).ownQueue.length < 32 ∧
    32 ≤ (choosing 32).ownQueue.length := by
  simp only [State.Calm, State.Due, State.QueueLaw]
  decide +kernel

theorem witness_ForwardedAndSlugAnswered_responses :
    controlWrite.Calm ∧
    controlWrite.issued 1 Cargo.isForwarded = some { tag := 1, cargo := .control 0, addr := 0x1000, access := .write [fullBeat 5, fullBeat 6] } ∧
    slugInFlight.Calm ∧
    slugInFlight.issued 7 Cargo.isSlug = some { tag := 7, cargo := .slug 6, addr := 0xC00000000, access := .read 1 } ∧
    ({ slugInFlight with inFlight := [{ tag := 7, cargo := .plain 6, addr := 64, access := .read 1 }] } : State).issued 7 Cargo.isForwarded = some { tag := 7, cargo := .plain 6, addr := 64, access := .read 1 } ∧
    Taken.fresh 6 41 ∈ slugInFlight.outstanding ∧
    (slugInFlight.outstanding.find? fun j => j.initiator == 41) = some (Taken.fresh 6 41) ∧
    (∀ j ∈ slugInFlight.outstanding, j.request = 6 → j = Taken.fresh 6 41) ∧
    ({ controlWrite with inFlight := [{ tag := 1, cargo := .control 0, addr := 0x1000, access := .read 1 }] } : State).issued 1 Cargo.isForwarded = some { tag := 1, cargo := .control 0, addr := 0x1000, access := .read 1 } := by
  simp only [State.Calm]
  decide +kernel

/-- A capture write with a number of parts not yet answered. -/
def captured (parts : Nat) (forming faulted : Bool) : State :=
  { stage with
    nextId := 8, inFlight := [{ tag := 7, cargo := .capture 6, addr := 0x800000400, access := .write [fullBeat 0] }],
    outstanding := [{ Taken.fresh 6 12 with parts := parts, forming := forming, faulted := faulted }] }
def part : Transaction := { tag := 7, cargo := .capture 6, addr := 0x800000400, access := .write [fullBeat 0] }
theorem witness_ForwardedAndSlugAnswered_capture :
    (captured 2 false false).Calm ∧
    (captured 2 false false).issued 7 Cargo.isForwarded = some part ∧
    ((captured 2 false false).outstanding.find? fun j => j.request == 6) = some { Taken.fresh 6 12 with parts := 2 } ∧
    ((captured 1 true false).outstanding.find? fun j => j.request == 6) = some { Taken.fresh 6 12 with parts := 1, forming := true } ∧
    ((captured 1 false false).outstanding.find? fun j => j.request == 6) = some { Taken.fresh 6 12 with parts := 1 } ∧
    ((captured 1 false true).outstanding.find? fun j => j.request == 6) = some { Taken.fresh 6 12 with parts := 1, faulted := true } := by
  simp only [State.Calm]
  decide +kernel

def redirectedRead : Transaction := { tag := 7, cargo := .redirected 6, addr := 0x800000400, access := .read 16 }
def redirectEntry : Redirect := { tag := 7, window := 0, initiator := 41, source := 4, slot := 1 }
theorem witness_RedirectedReadAnswered :
    (pinned (completed .full)).Calm ∧
    (pinned (completed .full)).drain = none ∧
    (pinned (completed .full)).issued 7 Cargo.isRedirected = some redirectedRead ∧
    ((pinned (completed .full)).redirects.find? fun k => k.tag == 7) = some redirectEntry ∧
    ((pinned (completed .full)).sources[4].slot 1).state = .complete ∧
    (pinned (completed .full)).sources[4].state ≠ .closing ∧
    ((pinned { filling with state := .reclaim }).sources[4].slot 1).pins = 1 ∧
    ((pinned { filling with state := .reclaim }).sources[4].slot 1).state = .reclaim ∧
    ((pinned { filling with state := .reclaim }).sources[4].slot 1).waiting = none ∧
    2 ≤ ((waitingStage 2).sources[4].slot 1).pins := by
  simp only [State.Calm]
  decide +kernel

/-- A CLOSING camera with one pinned slot, its read in flight; and the same in a drain, the RESTART in slot 5. -/
def lastPin (st : SourceState) : State :=
  (pinned (completed .full)).putSource 4
    { camera with state := st, slots := camera.slots.set 1 { filling with state := .reclaim, pins := 1 } }
def lastOfDrain (st : SourceState) : State :=
  { lastPin st with drain := some 5, slots := running.slots.set 5 (.pending (command 20 []) false) }
/-- The waiting header of section 12.6 with the 14 data beats of its request that wait with it. -/
def headerWithRest : Waiting := { waitingHeader with rest := dataBeats 14 }
def waitingRest (pins : Nat) : State :=
  (waitingStage pins).putSlot 4 1 { filling with state := .reclaim, waiting := some headerWithRest, pins := pins }
theorem rest_of_slot_1 (pins : Nat) :
    (waitingRest pins).sources[4].DataBeats (headerWithRest.addr + 64) 1 headerWithRest.rest := whole_buffer_of_slot_1

/-- R11: header and rest go on as one part of 15 beats, all of them counted. -/
theorem test_rest_of_a_waiting_header :
    ((after (.redirectedReadResponse 0 7 (.okay [])) (waitingRest 1)).sources[4].slot 1).beats = 15 ∧
      (after (.redirectedReadResponse 0 7 (.okay [])) (waitingRest 1)).stream.map (fun x => (x.addr, x.access.length)) =
        [(0x800000400, 15)] := by decide +kernel

theorem witness_LastPinReleases :
    (waitingStage 1).Calm ∧
    (waitingStage 1).issued 7 Cargo.isRedirected = some redirectedRead ∧
    ((waitingStage 1).redirects.find? fun k => k.tag == 7) = some redirectEntry ∧
    (waitingStage 1).drain = none ∧
    ((waitingStage 1).sources[4].slot 1).pins = 1 ∧
    ((waitingStage 1).sources[4].slot 1).state = .reclaim ∧
    ((waitingStage 1).sources[4].slot 1).waiting = some waitingHeader ∧
    (waitingRest 1).Calm ∧
    (waitingRest 1).issued 7 Cargo.isRedirected = some redirectedRead ∧
    ((waitingRest 1).sources[4].slot 1).pins = 1 ∧
    ((waitingRest 1).sources[4].slot 1).waiting = some headerWithRest ∧
    headerWithRest.rest.length + 2 ≤ (waitingRest 1).sources[4].bufferLength ∧
    (lastPin .closing).Calm ∧
    (lastPin .closing).issued 7 Cargo.isRedirected = some redirectedRead ∧
    ((lastPin .closing).sources[4].slot 1).pins = 1 ∧
    ((lastPin .closing).sources[4].slot 1).waiting = none ∧
    (lastPin .closing).sources[4].state = .closing ∧
    (∀ y ∈ (lastPin .closing).sources[4].slots.eraseIdx 1, y.state ≠ .reclaim ∧ y.waiting = none) ∧
    (lastOfDrain .live).Calm ∧
    (lastOfDrain .live).drain = some 5 ∧
    (lastOfDrain .live).slots[5] = .pending (command 20 []) false ∧
    commandCode (command 20 []) = 20 ∧
    ((lastOfDrain .live).redirects.filter fun k => k.tag != 7) = [] ∧
    (lastOfDrain .live).held = [] ∧
    (∀ g : Fin 8, (lastOfDrain .live).groups[g].stopCommand = none) ∧
    (lastOfDrain .live).sources[4].state ≠ .closing ∧
    (lastOfDrain .closing).sources[4].state = .closing := by
  simp only [State.Calm]
  decide +kernel

/-- R173 (log entry 43): the last response of the drain empties the CLOSING source first, so that RESTART counts the other
two sources of the stage. -/
theorem test_last_pin_of_a_drain :
    (after (.redirectedReadResponse 0 7 (.okay [])) (lastOfDrain .closing)).drain = none ∧
      (after (.redirectedReadResponse 0 7 (.okay [])) (lastOfDrain .closing)).slots[5] = .done ∧
      (lastOfDrain .closing).openSources = 3 ∧
      ((after (.redirectedReadResponse 0 7 (.okay [])) (lastOfDrain .closing)).offered.any fun w => decide (w.kind = .statusRecord 5 ∧
        w.beats = [fullBeat (statusRecordBeat 2 1 20 0 77 300025 2 0)])) = true := by decide +kernel

theorem witness_OwnWritesIssuedAndAnswered_answer :
    ownInFlight.Calm ∧
    (ownInFlight.inFlightOwn.find? fun k => k.tag == 2) = some { tag := 2, write := ownWrite 5 } ∧
    (ownWrite 5).kind.isStartUp = false := by
  simp only [State.Calm]
  decide +kernel

theorem witness_HeldReadsReleased :
    (holding (completed .full)).Calm ∧
    (holding (completed .full)).windows[0] = some window ∧
    ((holding (completed .full)).held.filter fun k => k.source == 4 && k.slot == 1) = [heldRead] ∧
    ((holding (completed .full)).sources[4].slot 1).state = .complete ∧
    ((holding (completed .short)).sources[4].slot 1).kind = some .short ∧
    (holding (completed .full)).redirects.length < 32 ∧
    32 ≤ ({ holding (completed .full) with redirects := (crowded 32 filling).redirects } : State).redirects.length ∧
    ((holding (completed .closed)).sources[4].slot 1).kind = some .closed ∧
    ((holding (completed .faulted)).sources[4].slot 1).kind = some .faulted ∧
    ({ holding filling with lock := .locked } : State).Calm ∧
    (({ holding filling with lock := .locked } : State).held.find? fun k => k.initiator == 40) = some heldRead ∧
    ({ holding filling with lock := .locked } : State).Due (({ holding filling with lock := .locked } : State).heldDue 40) 910000 := by
  simp only [State.Calm, State.Due]
  decide +kernel

/-- The waiting header of section 12.6 with its source in another state. -/
def waitingIn (st : SourceState) : State := (waitingStage 0).putSource 4 { (waitingStage 0).sources[4] with state := st }
theorem witness_WaitingHeaderReleased :
    (waitingStage 0).Calm ∧
    ((waitingStage 0).sources[4].slot 1).state = .reclaim ∧
    ((waitingStage 0).sources[4].slot 1).pins = 0 ∧
    ((waitingStage 0).sources[4].slot 1).waiting = some waitingHeader ∧
    (waitingRest 0).Calm ∧
    ((waitingRest 0).sources[4].slot 1).pins = 0 ∧
    ((waitingRest 0).sources[4].slot 1).waiting = some headerWithRest ∧
    (waitingStage 0).sources[4].state = .live ∧
    waitingHeader.judgement = .accepted ∧
    2 ≤ (waitingStage 0).sources[4].bufferLength ∧
    headerClap waitingHeader.beat = false ∧
    headerRoll waitingHeader.beat = false ∧
    (waitingStage 0).sources[4].lateMonitor.on = false ∧
    (waitingIn .faulted).sources[4].state = .faulted ∧
    (waitingIn .closing).sources[4].state = .closing ∧
    (waitingIn .qualifying).sources[4].state = .qualifying ∧
    ((waitingIn .faulted).sources[4].slot 1).waiting = some waitingHeader ∧
    ({ waitingHeader with judgement := .rejected .key } : Waiting).judgement = .rejected .key := by
  simp only [State.Calm]
  decide +kernel

theorem witness_DrainedSourceBecomesEmpty :
    closing.Calm ∧
    closing.sources[4].drained = true ∧
    closing.slots[3] = .pending (command 7 [(8, 1, 4)]) true ∧
    commandCode (command 7 [(8, 1, 4)]) = 7 ∧
    field (command 7 [(8, 1, 4)]) 8 1 = 4 ∧
    (∀ j : Fin 16, j < 3 → closing.slots[j] = .idle) ∧
    stage.sources[4].drained = false := by
  simp only [State.Calm]
  decide +kernel

/-- A boundary of the period counter in FREE, one of the reference in LOCKED, one in HOLDOVER at its limit. -/
def atBoundary (lock : LockState) : State := { locked with lock := lock, scheduled := [7], strict := 1, holdCount := 1499 }
theorem witness_OrdinaryBoundary :
    stage.Calm ∧
    stage.Due stage.boundaryDue 900900 ∧
    stage.pendingRate = none ∧
    stage.preset = none ∧
    stage.jamDue = none ∧
    (atBoundary .locked).Due (atBoundary .locked).boundaryDue 7 ∧
    (atBoundary .locked).Calm ∧
    (atBoundary .holdover).Due (atBoundary .holdover).boundaryDue 900900 ∧
    (atBoundary .holdover).holdoverLimit ≤ 1499 + 1 ∧
    (atBoundary .holdover).jamDue = none ∧
    (stage.putMarker 1 { Marker.initial with trigger := .frame }).markers[1].trigger = .frame ∧
    stage.markers[1].trigger = .none := by
  simp only [State.Calm, State.Due]
  decide +kernel

theorem witness_PresetBoundary :
    presetStage.Calm ∧
    presetStage.Due presetStage.boundaryDue 900900 ∧
    presetStage.pendingRate = none ∧
    presetStage.preset = some { day := 2, label := ⟨1, 0, 0, 0⟩, slot := 3 } ∧
    presetStage.slots[3] = .pending (command 2 []) false ∧
    ({ presetStage with pendingRate := some 9, groups := running.groups } : State).Calm ∧
    ({ presetStage with pendingRate := some 9, groups := running.groups } : State).Due
      ({ presetStage with pendingRate := some 9, groups := running.groups } : State).boundaryDue 900900 ∧
    ({ presetStage with pendingRate := some 9, groups := running.groups } : State).pendingRate ≠ none ∧
    (∀ g : Fin 8, running.groups[g].state = .idle) := by
  simp only [State.Calm, State.Due]
  decide +kernel

def reJam (offset : Int) : State :=
  { jamStage with jamMode := .continuous, jamRun := some { length := 4, offset := offset, last := ⟨10, 0, 0, 3⟩ } }
theorem witness_JamBoundary :
    jamStage.Calm ∧
    jamStage.Due jamStage.boundaryDue 1080000 ∧
    jamStage.pendingRate = none ∧
    jamStage.preset = none ∧
    jamStage.jamDue = some 3060004 ∧
    jamStage.anyRolling = false ∧
    (jamStage.putGroup 2 rolling).jamDue = some 3060004 ∧
    (jamStage.putGroup 2 rolling).anyRolling = true ∧
    (jamStage.putGroup 2 rolling).deferral = false ∧
    (jamStage.putGroup 2 rolling).Due (jamStage.putGroup 2 rolling).boundaryDue 1080000 ∧
    jamStage.jamRun = some { length := 4, offset := 0, last := ⟨10, 0, 0, 3⟩ } ∧
    4 < ({ jamStage with jamLength := 5 } : State).jamLength ∧
    jamStage.jamLength ≤ 4 ∧
    jamStage.jamMode = .once ∧
    Label.valid 2 ⟨10, 0, 0, 3⟩ = true ∧
    running.jamMode = .off ∧
    ({ running with jamRun := (reJam 9).jamRun } : State).jamRun = some { length := 4, offset := 9, last := ⟨10, 0, 0, 3⟩ } ∧
    (reJam 9).jamDue = some 2660010 ∧
    (reJam 0).jamMode = .continuous ∧
    (reJam 0).jamRun = some { length := 4, offset := 0, last := ⟨10, 0, 0, 3⟩ } := by
  simp only [State.Calm, State.Due]
  decide +kernel

def changingRate : State := { stage with pendingRate := some 9, groups := running.groups }
theorem witness_RateBoundary :
    changingRate.Calm ∧
    changingRate.Due changingRate.boundaryDue 900900 ∧
    changingRate.pendingRate = some 9 ∧
    changingRate.preset = none ∧
    (∀ g : Fin 8, changingRate.groups[g].state = .idle) := by
  simp only [State.Calm, State.Due]
  decide +kernel

/-- Group 1 as it stands before the boundary to 300,026. -/
def withGroup (x : Group) : State := stage.putGroup 1 x
theorem witness_GroupsAtBoundary :
    (withGroup armed).Calm ∧
    (withGroup armed).Due (withGroup armed).boundaryDue 900900 ∧
    (withGroup armed).jamDue = none ∧
    0 ≤ signedDiff 3 300026 armed.requestedRoll ∧
    signedDiff 3 300026 300027 < 0 ∧
    ({ armed with rollMode := .now, rollDue := true } : Group).rollDue = true ∧
    rolling.stopCount = none ∧
    signedDiff 3 300026 300026 = 0 ∧
    ({ rolling with stopCount := some 300026 } : Group).state = .rolling ∧
    (withGroup rolling).toAwait 1 = [4, 9] ∧
    (withGroup { rolling with passed := [4, 9] }).toAwait 1 = [] ∧
    (withGroup stopping).tailLimit ≤ stopping.tail + 1 ∧
    ({ stopping with tail := 6 } : Group).tail + 1 < (withGroup stopping).tailLimit ∧
    stage.groups[1].state = .idle ∧
    (∀ h : Fin 8, h ≠ 1 → (withGroup stopping).groups[h].stopCommand = none) ∧
    ({ Marker.initial with trigger := .takeRoll 1 } : Marker).trigger = .takeRoll 1 := by
  simp only [State.Calm, State.Due]
  decide +kernel

/-- A slate's ROLL record; the member's last buffer at the stop count; members that leave LIVE. -/
theorem witness_TakeFollowsMembers :
    (withGroup { armed with rollMode := .onSlate }).Ready (writeOf 22 0xA00000000 [header 5 2 0]) ∧
    (withGroup armed).IdLaw ∧
    (withGroup armed).classify (writeOf 22 0xA00000000 [header 5 2 0]) = .capture 20 ∧
    slate.place 0xA00000000 = (0, 0) ∧
    stage.sources[20].fillingSlot = none ∧
    stage.sources[20].state = .live ∧
    stage.sources[20].check (header 5 2 0) = .accepted ∧
    headerRoll (header 5 2 0) = true ∧
    (watched { filling with beats := 15 }).Ready dataWrite ∧
    (watched { filling with beats := 15 }).IdLaw ∧
    (watched { filling with beats := 15 }).classify dataWrite = .capture 4 ∧
    (watched { filling with beats := 15 }).sources[4].state = .live ∧
    ((watched { filling with beats := 15 }).sources[4].slot 1).stamp = some { count := 300024, frac := 0 } ∧
    (watched { filling with beats := 15 }).sources[4].bufferLength ≤ 15 + 1 ∧
    (watched { filling with beats := 15 }).sources[4].group = some 1 ∧
    0 ≤ signedDiff 3 300024 300024 ∧
    signedDiff 3 300024 300025 < 0 ∧
    (given stage (command 6 [(8, 1, 4)])).Calm ∧
    (given stage (command 6 [(8, 1, 4)])).Offers 3 (command 6 [(8, 1, 4)]) [] ∧
    finField 32 (command 6 [(8, 1, 4)]) 8 = some 4 ∧
    commandCode (command 6 [(8, 1, 4)]) = 6 ∧
    commandCode (command 7 [(8, 1, 4)]) = 7 ∧
    stage.sources[4].group = some 1 ∧
    stage.sources[4].fillingSlot = none ∧
    (watched filling).sources[4].fillingSlot = some 1 ∧
    ((watched filling).sources[4].slot 1).fill.isSome = true ∧
    stopping.state = .stopping ∧
    ({ stopping with stopCount := some 300024, awaited := [4] } : Group).awaited = [4] := by
  simp only [ready_iff, State.Calm, State.IdLaw, State.Offers]
  decide +kernel

/-- R130, R132 (log entries 39 and 40): camera 4, the last awaited member, closes. Its FILLING slot lies at the stop count, so
that the completion ends the take, and there is no MEMBER_LOST entry: MEDIA and TAKE_END only; with no FILLING slot the entries
are MEMBER_LOST and TAKE_END. -/
def lastAwaited (s : State) : State :=
  given (s.putGroup 1 { stopping with stopCount := some 300024, awaited := [4], stopCommand := none }) (command 7 [(8, 1, 4)])
theorem test_member_lost :
    (after (.sourceClose 0 3 (command 7 [(8, 1, 4)])) (lastAwaited (watched filling))).indexSeq = 2 ∧
      (after (.sourceClose 0 3 (command 7 [(8, 1, 4)])) (lastAwaited (watched filling))).groups[1].state = .idle ∧
      (after (.sourceClose 0 3 (command 7 [(8, 1, 4)])) (lastAwaited stage)).indexSeq = 2 ∧
      (after (.sourceClose 0 3 (command 7 [(8, 1, 4)])) (lastAwaited stage)).groups[1].state = .idle := by decide +kernel

/-- A LIVE_DELAY aim, a cue, and a window in each mode; the last sub-index of a count and the one before it. -/
theorem witness_WindowTargets :
    windowAim 3 (command 16 [(10, 1, 1), (11, 1, 255)]) = some { mode := .liveDelay, delay := 255, cue := none } ∧
    windowAim 3 cueRecord = some { mode := .cueRoll, delay := 0, cue := some ⟨700000, 0⟩ } ∧
    window.mode = .liveDelay ∧
    ({ window with mode := .cueStill } : Window).mode = .cueStill ∧
    ({ window with mode := .cueRoll } : Window).target.frac + 1 < window.speedRatio ∧
    ({ window with mode := .cueRoll, target := ⟨300024, 1⟩ } : Window).speedRatio ≤ 1 + 1 := by
  decide +kernel

theorem witness_FpoAndMarkerParts :
    ({ running with fpo := true } : State).Calm ∧
    ({ running with fpo := true } : State).Due ({ running with fpo := true } : State).fpoDue 27 ∧
    (marked train).Calm ∧
    (marked train).markers[2].train = some train ∧
    train.partEnd ≤ (marked train).reach train.partEnd ∧
    train.high = true ∧
    train.pulse < train.count ∧
    ({ train with pulse := 2 } : Train).count ≤ ({ train with pulse := 2 } : Train).pulse ∧
    ({ train with high := false } : Train).high = false := by
  simp only [State.Calm, State.Due]
  decide +kernel

/-- The interval of 1,125,000 ticks at its tolerance of 270, and one tick beyond it. -/
theorem witness_PulseAcquires :
    running.Calm ∧
    running.lock = .free ∧
    running.refEnable = false ∧
    ({ running with refEnable := true } : State).refEnable = true ∧
    ({ running with lock := .holdover } : State).Calm ∧
    ({ running with lock := .holdover } : State).lock = .holdover ∧
    (locking 0).Calm ∧
    (locking 0).lock = .acquire ∧
    ({ locking 0 with acqRun := none } : State).acqRun = none ∧
    (locking 0).acqRun = some { previous := 8275000, good := 7 } ∧
    1125000 ≤ ((locking 0).wait 270).now - 8275000 + 270 ∧ ((locking 0).wait 270).now - 8275000 ≤ 1125000 + 270 ∧
    (locking 0).ref.lockCount ≤ 7 + 1 ∧
    6 + 1 < (locking 0).ref.lockCount ∧
    ({ locking 0 with now := 9399729 } : State).Calm ∧
    (({ locking 0 with now := 9399728 } : State).wait 1).now - 8275000 + 270 < 1125000 ∧
    ({ locking 0 with attempts := 3 } : State).ref.attemptLimit ≤ 3 + 1 ∧
    ({ locking 0 with attempts := 2 } : State).attempts + 1 < (locking 0).ref.attemptLimit := by
  simp only [State.Calm]
  decide +kernel

/-- The windows of a used pulse and of an unused one at their ends, and both behaviours. -/
theorem witness_PulseInLockedAndDeadlines_pulse :
    locked.Calm ∧
    locked.lock = .locked ∧
    locked.lastUsed = some 0 ∧
    (locked.wait 788288).now = 900900 - 900900 / 8 ∧
    (locked.wait 1013512).now = 900900 + 900900 / 8 ∧
    locked.fineThreshold = 270 ∧
    locked.relocks = false ∧
    locked.excursion = false ∧
    ({ locked with strict := 1 } : State).relocks = true ∧
    ({ locked with ref := { RefFields.initial with divider := 2 } } : State).ref.divider = 2 ∧
    locked.usedNext = false ∧
    450450 - 450450 / 8 = 394144 ∧
    (locked.wait 394144).now = 394144 := by
  simp only [State.Calm]
  decide +kernel

theorem witness_PulseInLockedAndDeadlines_deadlines :
    ({ locking 0 with phase := 0 } : State).Calm ∧
    ({ locking 0 with phase := 0 } : State).Due ({ locking 0 with phase := 0 } : State).acquireDue 9400270 ∧
    (locking 0).attempts + 1 < (locking 0).ref.attemptLimit ∧
    ({ locking 0 with attempts := 3 } : State).ref.attemptLimit ≤ 3 + 1 ∧
    locked.Calm ∧
    locked.Due locked.missingDue 1013512 := by
  simp only [State.Calm, State.Due]
  decide +kernel

theorem witness_TimecodeWordRuns :
    jamStage.Calm ∧
    running.jamMode = .off ∧
    jamStage.jamMode ≠ .off ∧
    Label.valid 2 ⟨10, 0, 0, 25⟩ = false ∧
    Label.valid 2 ⟨10, 0, 0, 4⟩ = true ∧
    Rate.isDrop 2 = false ∧
    ({ jamStage with jamRun := none } : State).jamRun = none ∧
    (⟨10, 0, 0, 4⟩ : Label) = labelOf 2 ((Label.frameOfDay 2 ⟨10, 0, 0, 3⟩ + 1) % Rate.framesPerDay 2) ∧
    (⟨10, 0, 0, 5⟩ : Label) ≠ labelOf 2 ((Label.frameOfDay 2 ⟨10, 0, 0, 3⟩ + 1) % Rate.framesPerDay 2) := by
  simp only [State.Calm]
  decide +kernel

/-- The bridge with an unissued write-back of S4 in the queue, which the next write of S4 merges into. -/
def settingQueued : State :=
  { givenSetting 4 32 0xFF with
    ownQueue := [{ kind := .writeBack 4, addr := settingsOffset, beats := [{ data := 0, enables := wordEnables 4 }], joined := 0 }] }
theorem place_givenSetting (value : Nat) : (givenSetting 4 value 0xFF).WriteBackPlaceLaw := by
  intro w hw
  simp [givenSetting, running, State.reset] at hw
theorem place_settingQueued : settingQueued.WriteBackPlaceLaw := by
  intro w hw n _
  have : w ∈ settingQueued.ownQueue := by simpa [settingQueued, givenSetting, running, State.reset] using hw
  rw [List.mem_singleton.1 this]
  decide +kernel

/-- A high mark of 32 is in range and one of 33 is not. -/
theorem witness_SettingsWritten :
    (givenSetting 4 16 0xFF).Calm ∧
    (givenSetting 4 16 0xFF).inbox = { offset := settingsOffset, data := settingBeat 4 16 0xFF, enables := wordEnables 4 } :: [] ∧
    wordEnabled (wordEnables 4) 4 = 8 ∧
    wordEnabled (wordEnables 4) 3 = 0 ∧
    settingInRange 4 (mergeSetting (givenSetting 4 32 0xFF).settings[4] 32 0xFF) = true ∧
    settingInRange 4 (mergeSetting (givenSetting 4 33 0xFF).settings[4] 33 0xFF) = false ∧
    (settingWritten (settingBeat 4 33 0xFF) 4) = (33, 0xFF) ∧
    (givenSetting 4 33 0xFF).Calm ∧
    (givenSetting 4 33 0xFF).inbox = { offset := settingsOffset, data := settingBeat 4 33 0xFF, enables := wordEnables 4 } :: [] ∧
    (∀ w ∈ settingQueued.ownQueue ++ settingQueued.offered, w.kind = .writeBack 4 ∧ w.addr = settingQueued.controlBase + settingsOffset) ∧
    settingQueued.ownQueue ≠ [] ∧
    settingQueued.Calm := by
  simp only [State.Calm]
  decide +kernel

theorem witness_ConsumerAndIgnoredWrites :
    (ring 40000 55359).Calm ∧
    consumerEnabled 0xFF#64 = true ∧
    (ring 40000 55359).inbox = { offset := consumerOffset, data := pack [(0, 8, 55359)], enables := 0xFF#64 } :: [] ∧
    (ring 40000 55359).producer = 55359 ∧
    partialRecord.Calm ∧
    (ControlBeat.mk 0x2000 (command 20 []) (allEnables - 1)).takenAs = .ignored ∧
    partialRecord.inbox = { offset := 0x2000, data := command 20 [], enables := allEnables - 1 } :: [] := by
  simp only [State.Calm]
  decide +kernel

theorem witness_TimeCommandsAccepted_timebase :
    (given running (timebaseRecord 4 1)).Calm ∧
    (given running (timebaseRecord 4 1)).Offers 3 (timebaseRecord 4 1) [] ∧
    commandCode (timebaseRecord 4 1) = 1 ∧
    timebaseSetArgs (timebaseRecord 4 1) = some (4, RefFields.initial) ∧
    (given running (timebaseRecord 4 1)).busy = false ∧
    (given running (timebaseRecord 4 1)).preset = none ∧
    (given running (timebaseRecord 1 1)).Offers 3 (timebaseRecord 1 1) [] ∧
    timebaseSetArgs (timebaseRecord 1 1) = some (1, RefFields.initial) ∧
    (given (locking 0) (timebaseRecord 1 2)).Offers 3 (timebaseRecord 1 2) [] ∧
    timebaseSetArgs (timebaseRecord 1 2) = some (1, { RefFields.initial with divider := 2 }) ∧
    (given (locking 0) (timebaseRecord 1 2)).busy = false ∧
    (locking 0).lock ≠ .free := by
  simp only [State.Calm, State.Offers]
  decide +kernel

theorem witness_TimeCommandsAccepted_others :
    (given presetStage (presetRecord 1)).Calm ∧
    (given { running with rate := 4 } (presetRecord 1)).Offers 3 (presetRecord 1) [] ∧
    commandCode (presetRecord 1) = 2 ∧
    timePresetArgs 4 (presetRecord 1) = some (2, ⟨1, 0, 0, 0⟩) ∧
    ({ running with rate := 4 } : State).preset = none ∧
    running.anyRolling = false ∧
    (given jamStage (jamRecord 2 15)).Offers 3 (jamRecord 2 15) [] ∧
    commandCode (jamRecord 2 15) = 3 ∧
    jamModeArgs (jamRecord 2 15) = some (.continuous, 15) ∧
    jamModeArgs (jamRecord 0 2) = some (.off, 2) ∧
    commandCode (command 4 [(8, 1, 1)]) = 4 ∧
    field (command 4 [(8, 1, 1)]) 8 1 = 1 ∧
    field (command 4 []) 8 1 = 0 ∧
    JamMode.continuous ≠ jamStage.jamMode ∧
    (given running (command 4 [])).Offers 3 (command 4 []) [] ∧
    running.lock = .free ∧
    (given locked (command 4 [])).Offers 3 (command 4 []) [] ∧
    locked.lock ≠ .free := by
  simp only [State.Calm, State.Offers]
  decide +kernel

/-- A stage whose sources hold 504 slots (no run reaches one source with so many; the hypothesis only counts them). -/
def fullPool : State := { running with sources := running.sources.set 0 { camera with slotCount := 504, bufferLength := 1 } }
/-- The pool filled to its 512 slots by the command. -/
theorem witness_SourceCommandsAccepted_open :
    (given stage (openRecord 14)).Calm ∧
    (given stage (openRecord 14)).Offers 3 (openRecord 14) [] ∧
    commandCode (openRecord 14) = 5 ∧
    (sourceOpenArgs (openRecord 14)).map Prod.fst = some 6 ∧
    stage.pendingRate = none ∧
    stage.sources[6].state = .empty ∧
    (∀ m : Fin 32, stage.sources[m].state ≠ .empty → stage.sources[m].initiator ≠ 14) ∧
    stage.spanTaken 0xE00000000 (8 * 16 * 64) = false ∧
    fullPool.slotsHeld + 8 ≤ 512 ∧
    fullPool.spanTaken 0xE00000000 (8 * 16 * 64) = false := by
  simp only [State.Calm, State.Offers]
  decide +kernel

/-- Camera 4 with slot 1 FILLING and a read held on it, and the same QUALIFYING; then with slot 2 pinned. -/
def fillingIn (st : SourceState) (pins : Nat) : State :=
  (holding filling).putSource 4
    { camera with
      state := st, group := some 1, slots := (camera.slots.set 1 filling).set 2 { completed .full with pins := pins } }
theorem witness_SourceCommandsAccepted_filling :
    (given (fillingIn .live 0) (command 6 [(8, 1, 4)])).Calm ∧
    (given (fillingIn .live 0) (command 6 [(8, 1, 4)])).Offers 3 (command 6 [(8, 1, 4)]) [] ∧
    finField 32 (command 6 [(8, 1, 4)]) 8 = some 4 ∧
    (fillingIn .live 0).sources[4].fillingSlot = some 1 ∧
    (fillingIn .live 0).sources[4].group = some 1 ∧
    (fillingIn .live 0).groups[1].state = .idle ∧
    (fillingIn .live 0).heldOn 4 1 = [heldRead] ∧
    (fillingIn .live 0).windows[0] = some window ∧
    commandCode (command 6 [(8, 1, 4)]) = 6 ∧
    (fillingIn .live 0).sources[4].state = .live ∧
    filling.stamp.isSome = true ∧ filling.fill.isSome = true ∧
    commandCode (command 7 [(8, 1, 4)]) = 7 ∧
    (given (fillingIn .qualifying 0) (command 7 [(8, 1, 4)])).Offers 3 (command 7 [(8, 1, 4)]) [] ∧
    (fillingIn .qualifying 0).sources[4].state = .qualifying ∧
    (fillingIn .qualifying 0).sources[4].fillingSlot = some 1 ∧
    (∀ y ∈ (fillingIn .qualifying 0).sources[4].slots, y.pins = 0) ∧
    (∃ y ∈ (fillingIn .qualifying 1).sources[4].slots, y.pins = 1) := by
  simp only [State.Calm, State.Offers]
  decide +kernel

/-- R77, R79, R91: that slot completes and becomes FREE with the others; its held read goes to the slug buffer. -/
theorem test_requalify_and_close_while_filling :
    let requalified := after (.sourceRequalify 0 3 (command 6 [(8, 1, 4)])) (given (fillingIn .live 0) (command 6 [(8, 1, 4)]))
    let closed := after (.sourceClose 0 3 (command 7 [(8, 1, 4)])) (given (fillingIn .qualifying 1) (command 7 [(8, 1, 4)]))
    requalified.sources[4].slot 1 = Slot.free ∧ requalified.indexSeq = 1 ∧ requalified.held = [] ∧
      requalified.stream.map Transaction.asks = [(.slug 7, 0xC00000040, .read 15)] ∧
      closed.sources[4].state = .closing ∧ closed.sources[4].slot 1 = Slot.free ∧ (closed.sources[4].slot 2).state = .reclaim := by
  decide +kernel

theorem witness_SourceCommandsAccepted_requalifyAndClose :
    (given (pinned (completed .full)) (command 6 [(8, 1, 4)])).Calm ∧
    (given (pinned (completed .full)) (command 6 [(8, 1, 4)])).Offers 3 (command 6 [(8, 1, 4)]) [] ∧
    finField 32 (command 6 [(8, 1, 4)]) 8 = some 4 ∧
    (pinned (completed .full)).sources[4].fillingSlot = none ∧
    (pinned (completed .full)).sources[4].group = some 1 ∧
    (pinned (completed .full)).groups[1].state = .idle ∧
    commandCode (command 6 [(8, 1, 4)]) = 6 ∧
    (pinned (completed .full)).sources[4].state = .live ∧
    commandCode (command 7 [(8, 1, 4)]) = 7 ∧
    (∃ y ∈ (pinned (completed .full)).sources[4].slots.map Slot.release, y.state = .reclaim) ∧
    (∀ y ∈ stage.sources[4].slots.map Slot.release, y.state ≠ .reclaim ∧ y.waiting = none) ∧
    (given (holding filling) (command 7 [(8, 1, 4)])).Offers 3 (command 7 [(8, 1, 4)]) [] ∧
    (holding filling).sources[4].fillingSlot = some 1 ∧
    heldRead ∈ (holding filling).held ∧
    ((holding filling).sources[4].slot 1).stamp = some window.target ∧
    ((holding filling).sources[4].slot 1).fill.isSome = true ∧
    ({ holding filling with indexRing := some { base := 0xF00000000, capacity := 1024 } } : State).indexRing = some { base := 0xF00000000, capacity := 1024 } := by
  simp only [State.Calm, State.Offers]
  decide +kernel

theorem witness_MonitorAnchorIndexAccepted :
    (given stage (lateRecord 2)).Calm ∧
    (given stage (lateRecord 2)).Offers 3 (lateRecord 2) [] ∧
    commandCode (lateRecord 2) = 8 ∧
    lateMonitorArgs (lateRecord 2) = some (4, 2, .leave, true) ∧
    stage.sources[4].state ≠ .empty ∧
    commandCode (anchorRecord 4) = 9 ∧
    anchorSetArgs 3 (anchorRecord 4) = some (4, { pc := 400000, position := 123456, base := 3, origin := .command }) ∧
    stage.sources[4].state ≠ .closing ∧
    stage.sources[4].kind ≠ .slate ∧
    (List.replicate 8 Anchor.absent).length ≤ 8 ∧
    (given running indexRecord).Offers 3 indexRecord [] ∧
    commandCode indexRecord = 10 ∧
    indexSetArgs indexRecord = some { base := 0xF00000000, capacity := 4096 } ∧
    (∀ n : Fin 32, running.sources[n].state ≠ .qualifying ∧ running.sources[n].state ≠ .live) ∧
    spansOverlap 0xF00000000 (4096 * 64) running.controlBase controlLength = false := by
  simp only [State.Calm, State.Offers]
  decide +kernel

theorem witness_GroupSetAccepted :
    (given ungrouped groupRecord).Calm ∧
    (given ungrouped groupRecord).Offers 3 groupRecord [] ∧
    commandCode groupRecord = 11 ∧
    groupSetArgs groupRecord = some (1, [4, 9, 20]) ∧
    ungrouped.groups[1].state = .idle ∧
    (∀ n ∈ ([4, 9, 20] : List (Fin 32)), ungrouped.sources[n].state ≠ .empty ∧ (ungrouped.sources[n].group = none ∨ ungrouped.sources[n].group = some 1)) ∧
    stage.sources[9].group = some 1 := by
  simp only [State.Calm, State.Offers]
  decide +kernel

theorem witness_TakeCommandsAccepted :
    (given stage armRecord).Calm ∧
    (given stage armRecord).Offers 3 armRecord [] ∧
    commandCode armRecord = 12 ∧
    takeArmArgs 3 armRecord = some (1, .atTime, 300020) ∧
    commandCode armNow = 12 ∧
    takeArmArgs 3 armNow = some (1, .now, 0) ∧
    takeArmArgs 3 (command 12 [(8, 1, 1), (9, 1, 2)]) = some (1, .onSlate, 0) ∧
    stage.pendingRate = none ∧
    stage.groups[1].state = .idle ∧
    stage.groups[1].take ≠ 65535 ∧
    (given (stage.putGroup 1 rolling) stopRecord).Offers 3 stopRecord [] ∧
    commandCode stopRecord = 13 ∧
    takeStopArgs 3 stopRecord = some (1, some 300040) ∧
    takeStopArgs 3 (command 13 [(8, 1, 1), (9, 1, 1)]) = some (1, none) ∧
    rolling.state = .rolling ∧
    rolling.stopCount = none ∧
    0 < signedDiff 3 300021 rolling.rollCount ∧
    (given (stage.putGroup 1 armed) abandonRecord).Offers 3 abandonRecord [] ∧
    commandCode abandonRecord = 14 ∧
    finField 8 abandonRecord 8 = some 1 ∧
    armed.state = .armed ∧
    stopping.state = .stopping ∧
    stopping.stopCommand = some 3 ∧
    ({ stage with slots := running.slots.set 2 (.pending stopRecord true) } : State).slots[2] = .pending stopRecord true := by
  simp only [State.Calm, State.Offers]
  decide +kernel

theorem witness_WindowCommandsAccepted :
    (given stage (windowRecord 0xB00000000)).Calm ∧
    (given stage (windowRecord 0xB00000000)).Offers 3 (windowRecord 0xB00000000) [] ∧
    commandCode (windowRecord 0xB00000000) = 15 ∧
    (windowOpenArgs 3 (windowRecord 0xB00000000)).map (fun a => (a.window, a.source, a.aim.cue)) = some (0, 4, none) ∧
    stage.windows[0] = none ∧
    stage.sources[4].state = .live ∧
    stage.sources[4].kind = .camera ∧
    0xB00000000 + stage.sources[4].bufferLength * 64 ≤ 2 ^ 40 ∧
    stage.spanTaken 0xB00000000 (stage.sources[4].bufferLength * 64) = false ∧
    (given (watched filling) cueRecord).Offers 3 cueRecord [] ∧
    commandCode cueRecord = 16 ∧
    windowCueArgs 3 cueRecord = some (0, { mode := .cueRoll, delay := 0, cue := some ⟨700000, 0⟩ }) ∧
    (watched filling).windows[0] = some window ∧
    (given (holding filling) (command 17 [])).Offers 3 (command 17 []) [] ∧
    commandCode (command 17 []) = 17 ∧
    finField 8 (command 17 []) 8 = some 0 := by
  simp only [State.Calm, State.Offers]
  decide +kernel

/-- R138, R142: WINDOW_CUE in LIVE_DELAY keeps the cue stamp, and in a cue mode the delay. -/
theorem test_window_cue_keeps :
    ((after (.windowCue 0 3 (command 16 [(10, 1, 1), (11, 1, 7)]))
        (given ((watched filling).putWindow 0 (some { window with mode := .cueStill, delay := 5, cue := some ⟨3, 1⟩ }))
          (command 16 [(10, 1, 1), (11, 1, 7)]))).windows[0].map fun x => (x.mode, x.delay, x.cue)) =
        some (.liveDelay, 7, some ⟨3, 1⟩) ∧
      ((after (.windowCue 0 3 cueRecord) (given (watched filling) cueRecord)).windows[0].map fun x => (x.mode, x.delay, x.cue)) =
        some (.cueRoll, 1, some ⟨700000, 0⟩) := by decide +kernel

theorem witness_MarkerCommands :
    (given (marked train) (markerRecord 3 5 250 7)).Calm ∧
    (given (marked train) (markerRecord 3 5 250 7)).Offers 3 (markerRecord 3 5 250 7) [] ∧
    commandCode (markerRecord 3 5 250 7) = 18 ∧
    finField 4 (markerRecord 3 5 250 7) 8 = some 2 ∧
    markerHasSet (markerRecord 3 5 250 7) = true ∧
    markerSetArgs (markerRecord 3 5 250 7) = some (.frame, 250, 7) ∧
    markerHasSet (markerRecord 2 0 0 0) = false ∧
    markerHasStop (markerRecord 2 0 0 0) = false ∧
    markerHasFire (markerRecord 2 0 0 0) = true ∧
    markerHasStop (markerRecord 6 0 0 0) = true ∧
    markerHasSet (markerRecord 6 0 0 0) = false ∧
    markerHasFire (markerRecord 3 5 250 7) = true ∧
    markerHasSet (markerRecord 7 5 250 7) = true ∧
    markerHasStop (markerRecord 7 5 250 7) = true ∧
    markerSetArgs (markerRecord 7 5 250 7) = some (.frame, 250, 7) ∧
    (markerHasSet (markerRecord 0 0 0 0), markerHasFire (markerRecord 0 0 0 0), markerHasStop (markerRecord 0 0 0 0)) =
      (false, false, false) ∧
    commandCode (markerRecord 0 0 0 0) = 18 := by
  simp only [State.Calm, State.Offers]
  decide +kernel

theorem witness_AttentionAckTaken :
    (given flagged (ackRecord 0xC0)).Calm ∧
    (given flagged (ackRecord 0xC0)).inbox = slotBeat 3 (ackRecord 0xC0) :: [] ∧
    (given flagged (ackRecord 0xC0)).slots[3].isPending = false ∧
    commandCode (ackRecord 0xC0) = 19 := by
  simp only [State.Calm]
  decide +kernel

/-- A stage with a held read, a redirected read in flight and a TAKE_STOP pending, as RESTART finds it. -/
def busyStage : State :=
  { holding filling with redirects := [redirectEntry], slots := running.slots.set 5 (.pending stopRecord true) }
theorem witness_RestartDrains_begins :
    (given busyStage (command 20 [])).Calm ∧
    (given busyStage (command 20 [])).Offers 3 (command 20 []) [] ∧
    commandCode (command 20 []) = 20 ∧
    (given busyStage (command 20 [])).redirects ≠ [] ∧
    (∀ e ∈ (given busyStage (command 20 [])).held, (given busyStage (command 20 [])).windows[e.window] ≠ none) ∧
    busyStage.slots[5] = .pending stopRecord true := by
  simp only [State.Calm, State.Offers]
  decide +kernel

theorem witness_RestartDrains_ends :
    (given stage (command 20 [])).Calm ∧
    (given stage (command 20 [])).Offers 3 (command 20 []) [] ∧
    commandCode (command 20 []) = 20 ∧
    (given stage (command 20 [])).redirects = [] ∧
    draining.Calm ∧
    draining.drain = some 3 ∧
    draining.redirects = [] ∧
    draining.slots[3] = .pending (command 20 []) false ∧
    stage.drain = none := by
  simp only [State.Calm, State.Offers]
  decide +kernel

/-- A record with one field replaced. -/
def withField (b : Beat) (f : Nat × Nat × Nat) : Beat :=
  (b &&& ~~~(BitVec.ofNat 512 (2 ^ (8 * f.2.1) - 1) <<< (8 * f.1))) ||| pack [f]

/-- What an owner answers to the records that differ from a valid one in one field. -/
def answers (own : Beat → Owned) (rec : Beat) (fields : List (Nat × Nat × Nat)) : List CommandResult :=
  fields.map fun f => (own (withField rec f)).2
def ranged (own : Beat → Owned) (rec : Beat) (outside inside : List (Nat × Nat × Nat)) : Bool :=
  (answers own rec outside).all (fun r => r == .refused .refusedRange) && (answers own rec inside).all (fun r => r != .refused .refusedRange)

/-- R168, R37, R62: each field of a record just outside its range, and at its ends; the refusals of state. -/
theorem test_time_refusals :
    ranged running.ownTimebaseSet (timebaseRecord 3 1)
      [(8, 1, 11), (9, 1, 0), (9, 1, 3), (12, 1, 1), (12, 1, 64), (13, 1, 0), (13, 1, 16), (14, 2, 26), (14, 2, 27001)]
      [(8, 1, 10), (9, 1, 2), (12, 1, 2), (12, 1, 63), (13, 1, 1), (13, 1, 15), (14, 2, 27), (14, 2, 27000), (10, 2, 0x8000)] = true ∧
    (running.ownTimebaseSet (timebaseRecord 0 2)).2 = .refused .refusedRange ∧
    (stage.ownTimebaseSet (timebaseRecord 3 1)).2 = .refused .refusedState ∧
    (({ running with preset := presetStage.preset } : State).ownTimebaseSet (timebaseRecord 3 1)).2 = .refused .refusedState ∧
    ranged (State.ownTimePreset { running with rate := 4 } 3) (presetRecord 1) [(14, 1, 0), (14, 1, 2), (10, 1, 24), (13, 1, 30)] [(10, 1, 23), (13, 1, 29)] = true ∧
    (State.ownTimePreset { running with rate := 4, preset := presetStage.preset } 3 (presetRecord 1)).2 = .refused .refusedState ∧
    (State.ownTimePreset ({ running with rate := 4 }.putGroup 2 stopping) 3 (presetRecord 1)).2 = .refused .refusedState ∧
    ranged running.ownJamMode (jamRecord 1 4) [(8, 1, 3), (9, 1, 1), (9, 1, 16)] [(8, 1, 2), (9, 1, 2), (9, 1, 15)] = true ∧
    ranged running.ownReference (command 4 []) [(8, 1, 2)] [(8, 1, 1)] = true := by decide +kernel

theorem witness_TimeCommandsRefused :
    (given stage (timebaseRecord 3 1)).Calm ∧
    (given stage (timebaseRecord 3 1)).Offers 3 (timebaseRecord 3 1) [] ∧
    commandCode (timebaseRecord 3 1) = 1 ∧
    10 < field (timebaseRecord 11 1) 8 1 ∧
    field (timebaseRecord 0 2) 8 1 = 0 ∧ field (timebaseRecord 0 2) 9 1 = 2 ∧
    (timebaseSetArgs (timebaseRecord 3 1)).isSome = true ∧
    (∃ n : Fin 32, stage.sources[n].state ≠ .empty) ∧
    (running.putGroup 1 armed).groups[1].state ≠ .idle ∧
    (watched filling).windows[0] ≠ none ∧
    (given { running with preset := presetStage.preset } (timebaseRecord 3 1)).Offers 3 (timebaseRecord 3 1) [] ∧
    presetStage.preset ≠ none ∧
    field (timebaseRecord 3 1) 8 1 ≠ running.rate.val ∧
    running.busy = false ∧
    (given { running with rate := 4 } (presetRecord 0)).Offers 3 (presetRecord 0) [] ∧
    commandCode (presetRecord 0) = 2 ∧
    Rate.isDrop 4 = true ∧ field (presetRecord 0) 14 1 = 0 ∧
    1 < field (presetRecord 2) 14 1 ∧
    (timePresetArgs 4 (presetRecord 1)).isSome = true ∧
    (running.putGroup 1 stopping).groups[1].state = .stopping ∧
    (given running (jamRecord 3 4)).Offers 3 (jamRecord 3 4) [] ∧
    commandCode (jamRecord 3 4) = 3 ∧
    2 < field (jamRecord 3 4) 8 1 ∧
    (given running (command 4 [(8, 1, 2)])).Offers 3 (command 4 [(8, 1, 2)]) [] ∧
    commandCode (command 4 [(8, 1, 2)]) = 4 ∧
    1 < field (command 4 [(8, 1, 2)]) 8 1 := by
  simp only [State.Calm, State.Offers]
  decide +kernel

/-- R66, R77, R79, R121, R107, R98: the same for the source, anchor and index commands; of two refusals the one of the earlier
check. -/
theorem test_source_refusals :
    ranged stage.ownSourceOpen (openRecord 14)
      [(8, 1, 32), (9, 1, 0), (9, 1, 4), (10, 1, 64), (12, 1, 2), (14, 1, 16), (32, 8, 2 ^ 40), (32, 8, 0xE00000020), (40, 4, 0), (40, 4, 2 ^ 24),
       (44, 1, 1), (44, 1, 65), (45, 1, 0), (45, 1, 9), (46, 1, 16), (32, 8, 2 ^ 40 - 8191), (9, 1, 3)]
      [(8, 1, 31), (10, 1, 63), (12, 1, 1), (14, 1, 15), (44, 1, 2), (44, 1, 64), (45, 1, 1), (45, 1, 8), (46, 1, 15), (32, 8, 2 ^ 40 - 8192),
       (52, 4, 2 ^ 20)] = true ∧
    ranged stage.ownSourceOpen (withField (withField (openRecord 14) (9, 1, 2)) (48, 2, 800)) [(45, 1, 3), (48, 2, 0)] [(45, 1, 0), (45, 1, 2), (48, 2, 65535)] = true ∧
    ranged stage.ownSourceOpen (withField (withField (openRecord 14) (9, 1, 3)) (40, 4, 1)) [(40, 4, 2), (52, 4, 2 ^ 20)] [(52, 4, 2 ^ 20 - 1), (46, 1, 16)] = true ∧
    (({ stage with pendingRate := some 4 } : State).ownSourceOpen (openRecord 14)).2 = .refused .refusedState ∧
    (stage.ownSourceOpen (withField (openRecord 12) (8, 1, 4))).2 = .refused .refusedState ∧
    (stage.ownSourceOpen (openRecord 12)).2 = .refused .refusedOverlap ∧
    answers stage.ownSourceOpen (openRecord 14) [(32, 8, 0x800000000), (32, 8, 0x800001FC0), (32, 8, 0)] = List.replicate 3 (.refused .refusedOverlap) ∧
    (fullPool.ownSourceOpen (withField (openRecord 14) (44, 1, 9))).2 = .refused .refusedFull ∧
    (stage.ownSourceRequalify (command 6 [(8, 1, 32)])).2 = .refused .refusedRange ∧
    [SourceState.qualifying, .closing].all (fun st => ((cameraIn st).ownSourceRequalify (command 6 [(8, 1, 4)])).2 == .refused .refusedState) = true ∧
    (stage.ownSourceClose (command 7 [(8, 1, 32)])).2 = .refused .refusedRange ∧
    ((cameraIn .closing).ownSourceClose (command 7 [(8, 1, 4)])).2 = .refused .refusedState ∧
    ranged stage.ownLateMonitor (lateRecord 2) [(8, 1, 32), (9, 1, 16), (10, 1, 0), (10, 1, 4), (11, 1, 2)] [(9, 1, 15), (10, 1, 3), (11, 1, 0)] = true ∧
    (stage.ownLateMonitor (withField (lateRecord 2) (8, 1, 5))).2 = .refused .refusedState ∧
    ranged stage.ownAnchorSet (anchorRecord 4) [(8, 1, 32), (9, 1, 5), (16, 8, Rate.range 3)] [(9, 1, 4), (16, 8, Rate.range 3 - 1)] = true ∧
    answers stage.ownAnchorSet (anchorRecord 4) [(8, 1, 5), (8, 1, 20)] = List.replicate 2 (.refused .refusedState) ∧
    ranged running.ownIndexSet indexRecord [(8, 4, 1023), (8, 4, 2 ^ 20 + 1), (16, 8, 0xF00000020), (16, 8, 2 ^ 40 - 262080)]
      [(8, 4, 1024), (8, 4, 2 ^ 20), (16, 8, 2 ^ 40 - 262144)] = true ∧
    (stage.ownIndexSet indexRecord).2 = .refused .refusedState ∧
    answers running.ownIndexSet indexRecord [(16, 8, 0), (16, 8, 0xFFFC0)] = List.replicate 2 (.refused .refusedOverlap) := by
  decide +kernel

theorem witness_SourceCommandsRefused :
    (given stage (openRecord 12)).Calm ∧
    (given stage (openRecord 12)).Offers 3 (openRecord 12) [] ∧
    commandCode (openRecord 12) = 5 ∧
    31 < field (withField (openRecord 14) (8, 1, 32)) 8 1 ∧
    (sourceOpenArgs (openRecord 12)).isSome = true ∧
    ({ stage with pendingRate := some 4 } : State).pendingRate ≠ none ∧
    stage.sources[6].state = .empty ∧ field (openRecord 12) 8 1 = 6 ∧
    stage.sources[4].state ≠ .empty ∧
    stage.sources[4].initiator.val = field (openRecord 12) 10 1 ∧
    (∃ p ∈ stage.spans, spansOverlap 0x800001FC0 (8 * 16 * 64) p.1 p.2 = true) ∧
    512 < fullPool.slotsHeld + field (withField (openRecord 14) (44, 1, 9)) 44 1 ∧
    commandCode (command 6 [(8, 1, 32)]) = 6 ∧
    31 < field (command 6 [(8, 1, 32)]) 8 1 ∧
    (cameraIn .qualifying).sources[4].state = .qualifying ∧
    commandCode (command 7 [(8, 1, 4)]) = 7 ∧
    (cameraIn .closing).sources[4].state = .closing ∧
    commandCode (lateRecord 4) = 8 ∧
    3 < field (lateRecord 4) 10 1 ∧
    commandCode (anchorRecord 20) = 9 ∧
    stage.sources[20].kind = .slate ∧
    commandCode indexRecord = 10 ∧
    stage.sources[4].state = .live ∧
    spansOverlap 0xFFFC0 (4096 * 64) running.controlBase controlLength = true := by
  simp only [State.Calm, State.Offers]
  decide +kernel

/-- R124, R125, R128, R131, R140, R142, R143, R136: the same for the group, take, window and marker commands. -/
theorem test_group_and_window_refusals :
    (ungrouped.ownGroupSet (command 11 [(8, 1, 8)])).2 = .refused .refusedRange ∧
    ((stage.putGroup 1 armed).ownGroupSet groupRecord).2 = .refused .refusedState ∧
    (stage.ownGroupSet (command 11 [(8, 1, 1), (12, 4, 2 ^ 5)])).2 = .refused .refusedState ∧
    (stage.ownGroupSet (command 11 [(8, 1, 2), (12, 4, 2 ^ 4)])).2 = .refused .refusedOverlap ∧
    (stage.ownGroupSet (command 11 [(8, 1, 2), (12, 4, 2 ^ 4 + 2 ^ 5)])).2 = .refused .refusedState ∧
    ranged stage.ownTakeArm armRecord [(8, 1, 8), (9, 1, 0), (9, 1, 4), (16, 8, Rate.range 3)] [(9, 1, 3), (16, 8, Rate.range 3 - 1)] = true ∧
    (({ stage with pendingRate := some 4 } : State).ownTakeArm armRecord).2 = .refused .refusedState ∧
    ((stage.putGroup 1 rolling).ownTakeArm armRecord).2 = .refused .refusedState ∧
    ((stage.putGroup 1 { Group.initial with take := 65535 }).ownTakeArm armRecord).2 = .refused .refusedState ∧
    ranged ((stage.putGroup 1 rolling).ownTakeStop 3) stopRecord [(8, 1, 8), (9, 1, 2), (16, 8, Rate.range 3), (16, 8, 300020)] [(16, 8, 300021)] = true ∧
    ((stage.putGroup 1 { rolling with stopCount := some 1 }).ownTakeStop 3 stopRecord).2 = .refused .refusedState ∧
    (stage.ownTakeStop 3 stopRecord).2 = .refused .refusedState ∧
    (stage.ownTakeAbandon (command 14 [(8, 1, 8)])).2 = .refused .refusedRange ∧
    (stage.ownTakeAbandon abandonRecord).2 = .refused .refusedState ∧
    ranged stage.ownWindowOpen (windowRecord 0xB00000000)
      [(8, 1, 8), (9, 1, 32), (10, 1, 0), (10, 1, 4), (12, 2, 0), (16, 8, 0xB00000800), (16, 8, 2 ^ 40), (24, 8, 2 ^ 40), (24, 8, 0xC00000020), (24, 8, 2 ^ 40 - 960)]
      [(8, 1, 7), (10, 1, 3), (12, 2, 1), (12, 2, 65535), (16, 8, 2 ^ 40 - 4096), (24, 8, 2 ^ 40 - 1024), (32, 8, 2 ^ 63)] = true ∧
    ranged stage.ownWindowOpen (withField (windowRecord 0xB00000000) (10, 1, 2)) [(32, 8, Rate.range 3), (14, 1, 2)] [(32, 8, Rate.range 3 - 1), (14, 1, 1)] = true ∧
    (({ stage with pendingRate := some 4 } : State).ownWindowOpen (windowRecord 0xB00000000)).2 = .refused .refusedState ∧
    ((watched filling).ownWindowOpen (windowRecord 0xB00001000)).2 = .refused .refusedState ∧
    answers stage.ownWindowOpen (windowRecord 0xB00000000) [(9, 1, 5), (9, 1, 9), (9, 1, 20)] = List.replicate 3 (.refused .refusedState) ∧
    answers stage.ownWindowOpen (windowRecord 0xB00000000) [(16, 8, 0), (16, 8, 0x800001000)] = List.replicate 2 (.refused .refusedOverlap) ∧
    ranged (watched filling).ownWindowCue cueRecord [(8, 1, 8), (10, 1, 0), (10, 1, 4), (32, 8, Rate.range 3), (14, 1, 2)] [(10, 1, 2), (32, 8, Rate.range 3 - 1), (14, 1, 1)] = true ∧
    (stage.ownWindowCue cueRecord).2 = .refused .refusedState ∧
    (stage.ownWindowClose (command 17 [(8, 1, 8)])).2 = .refused .refusedRange ∧
    (stage.ownWindowClose (command 17 [])).2 = .refused .refusedState ∧
    ranged running.ownMarker (markerRecord 1 5 250 7) [(8, 1, 4), (10, 1, 6), (12, 1, 0), (12, 1, 8), (14, 2, 0), (14, 2, 251)] [(8, 1, 3), (12, 1, 1), (14, 2, 1), (11, 1, 8)] = true ∧
    ranged running.ownMarker (markerRecord 1 4 250 7) [(11, 1, 8)] [(11, 1, 7)] = true ∧
    ranged running.ownMarker (markerRecord 2 0 0 0) [(8, 1, 4)] [(10, 1, 6)] = true := by
  decide +kernel

theorem witness_GroupAndWindowCommandsRefused :
    (given stage (command 11 [(8, 1, 2), (12, 4, 2 ^ 4)])).Calm ∧
    (given stage (command 11 [(8, 1, 2), (12, 4, 2 ^ 4)])).Offers 3 (command 11 [(8, 1, 2), (12, 4, 2 ^ 4)]) [] ∧
    commandCode groupRecord = 11 ∧
    7 < field (command 11 [(8, 1, 8)]) 8 1 ∧
    (stage.putGroup 1 armed).groups[1].state ≠ .idle ∧
    fieldBit (command 11 [(8, 1, 1), (12, 4, 2 ^ 5)]) 12 5 = true ∧ stage.sources[5].state = .empty ∧
    fieldBit (command 11 [(8, 1, 2), (12, 4, 2 ^ 4)]) 12 4 = true ∧ stage.sources[4].group = some 1 ∧
    commandCode armRecord = 12 ∧
    (takeArmArgs 3 armRecord).isSome = true ∧
    ({ Group.initial with take := 65535 } : Group).take = 65535 ∧
    commandCode stopRecord = 13 ∧
    (takeStopArgs 3 stopRecord).isSome = true ∧
    ({ rolling with stopCount := some 1 } : Group).stopCount ≠ none ∧
    signedDiff 3 300020 rolling.rollCount ≤ 0 ∧
    commandCode abandonRecord = 14 ∧
    stage.groups[1].state = .idle ∧
    commandCode (windowRecord 0xB00000000) = 15 ∧
    (windowOpenArgs 3 (windowRecord 0xB00000000)).isSome = true ∧
    (watched filling).windows[0] ≠ none ∧
    stage.sources[9].kind ≠ .camera ∧
    stage.sources[4].speedRatio ≤ field (withField (windowRecord 0xB00000000) (14, 1, 2)) 14 1 ∧
    2 ^ 40 < 2 ^ 40 - 960 + stage.sources[4].bufferLength * 64 ∧
    (∃ p ∈ stage.spans, spansOverlap 0x800001000 1024 p.1 p.2 = true) ∧
    commandCode cueRecord = 16 ∧
    (windowCueArgs 3 cueRecord).isSome = true ∧
    stage.windows[0] = none ∧
    window.speedRatio ≤ field (withField cueRecord (14, 1, 2)) 14 1 ∧
    commandCode (command 17 [(8, 1, 8)]) = 17 ∧
    7 < field (command 17 [(8, 1, 8)]) 8 1 ∧
    commandCode (markerRecord 1 6 250 7) = 18 ∧
    5 < field (markerRecord 1 6 250 7) 10 1 ∧
    3 < field (withField (markerRecord 2 0 0 0) (8, 1, 4)) 8 1 ∧
    markerHasFire (markerRecord 2 0 0 0) = true ∧
    markerHasStop (markerRecord 4 0 0 0) = true := by
  simp only [State.Calm, State.Offers]
  decide +kernel

theorem witness_RefusalsChangeNothing_records :
    (given pendingClose armRecord).Calm ∧
    (given pendingClose armRecord).inbox = slotBeat 3 armRecord :: [] ∧
    (given pendingClose armRecord).slots[3] = .pending (command 7 [(8, 1, 4)]) false ∧
    (given running (command 21 [])).inbox = slotBeat 3 (command 21 []) :: [] ∧
    running.slots[3].isPending = false ∧
    running.drain = none ∧
    20 < commandCode (command 21 []) ∧
    commandCode (command 0 []) = 0 ∧
    ({ pinned filling with drain := some 4 } : State).drain ≠ none ∧
    commandCode (openRecord 14) = 5 ∧
    commandCode armRecord = 12 := by
  simp only [State.Calm]
  decide +kernel

theorem witness_RefusalsChangeNothing_owners :
    running.ownSourceClose (command 7 []) = (running, .refused .refusedState) ∧
      stage.ownWindowOpen (windowRecord 0xB00000040) = (stage, .refused .refusedRange) := by decide +kernel

theorem witness_stamp_rules :
    (1 : Nat) ≤ 8 ∧ (4 : Nat) < 5 ∧ camera.kind = .camera ∧ sound.kind = .sound ∧ slate.kind = .slate ∧ (40000 : Nat) ≤ 40000 ∧
      (∀ b ∈ camera.anchors.take 1, (2020 : Word64) < b.position) ∧ (2020 : Word64) < 2021 ∧ Label.valid 4 ⟨23, 59, 59, 29⟩ = true ∧
      (2589407 : Nat) < Rate.framesPerDay 4 := by decide +kernel

theorem witness_StampAreaWritten : (3 : Nat) < 256 ∧ (2 ^ 32 - 1 : Nat) < 2 ^ 32 ∧ (2 ^ 64 - 1 : Nat) < 2 ^ 64 := by decide

/-- R180, R181: ATTN follows the flags that S0 enables, here WINDOW (bit 6) and REPORT_PENDING (bit 0). -/
theorem test_attention_line :
    let enabled (n : Nat) (s : State) : State := { s with settings := s.settings.set 0 (BitVec.ofNat 32 (2 ^ n)) }
    flagged.flags = 0xC0 ∧ flagged.attn = false ∧ (enabled 6 flagged).attn = true ∧ (enabled 5 flagged).attn = false ∧
      (enabled 0 flagged).attn = false ∧ (enabled 0 { flagged with producer := 1 }).attn = true ∧
      (enabled 6 { flagged with rstn := false }).attn = false := by decide +kernel

theorem witness_ReportRingRule :
    running.reportEnabled .slip = true ∧ ({ running with producer := 15358 } : State).producer - running.consumer < 15359 ∧
      15359 ≤ ({ running with producer := 15359 } : State).producer - running.consumer ∧
      ({ running with settings := running.settings.set 1 0 } : State).reportEnabled .slip = false ∧
      ({ running with settings := running.settings.set 1 0 } : State).reportEnabled .start = true := by decide +kernel

/-- A stage in mid-action, with a step of it that answers a next state, meets every law. -/
theorem witness_laws_kept :
    (∃ t, step { busyStage with pending := [.heldDeadline 40] } = .next t) ∧ busyStage.QueueLaw ∧ busyStage.WriteBackLaw ∧
      busyStage.CapacityLaw ∧ busyStage.SettingsLaw ∧ busyStage.RingLaw ∧ busyStage.CountLaw ∧ busyStage.ScheduleLaw ∧
      busyStage.AnchorLaw ∧ busyStage.AnchorBound ∧ busyStage.PoolLaw ∧ busyStage.EmptyLaw ∧ busyStage.BeatLaw ∧ busyStage.SpanLaw := by
  refine ⟨⟨_, rfl⟩, ?_⟩
  simp only [State.QueueLaw, State.WriteBackLaw, State.CapacityLaw, State.SettingsLaw, State.RingLaw, State.CountLaw,
    State.ScheduleLaw, State.AnchorLaw, State.AnchorBound, State.PoolLaw, State.EmptyLaw, State.BeatLaw,
    State.SpanLaw]
  decide +kernel

/-- A camera with a header waiting on a pinned slot, whose redirected read is answered in the step. -/
def waitingRun : State :=
  { waitingStage 1 with pending := [.redirectedReadResponse 0 7 (.okay [])] }
theorem witness_MemoryPathLawsKept : (∃ t, step waitingRun = .next t) ∧ waitingRun.PathLaw :=
  ⟨⟨_, rfl⟩, pathLaw_of
    ⟨by unfold State.EmptyLaw; decide +kernel, by unfold State.InitiatorLaw; decide +kernel, by unfold State.FillingLaw; decide +kernel,
      by unfold State.ReclaimLaw; decide +kernel, by unfold State.PinLaw; decide +kernel, by unfold State.ClosingLaw; decide +kernel,
      by unfold State.HeldLaw; decide +kernel, by unfold State.HeldApart; decide +kernel, by unfold State.ParkLaw; decide +kernel,
      by unfold State.DrainLaw; decide +kernel⟩
    (by decide +kernel) (by decide +kernel) (by decide +kernel)⟩

theorem witness_StatusBlockFollows :
    stage.Calm ∧ (∀ dt cwb, Instr.frameBoundary ≠ .powerOn dt cwb) ∧ exec .frameBoundary stage = .next (after .frameBoundary stage) ∧
      (after .frameBoundary stage).rstn = true :=
  ⟨⟨rfl, rfl⟩, (by intro _ _ h; cases h), rfl, by decide +kernel⟩

theorem witness_ResponsesInOrder :
    slugInFlight.rstn = true ∧ (∀ dt cwb, Instr.slugReadResponse 0 7 .fault ≠ .powerOn dt cwb) ∧
      (∀ dt, Instr.slugReadResponse 0 7 .fault ≠ .resetAssert dt) ∧
      exec (.slugReadResponse 0 7 .fault) slugInFlight = .next (after (.slugReadResponse 0 7 .fault) slugInFlight) ∧
      (after (.slugReadResponse 0 7 .fault) slugInFlight).answered 41 = [6] ∧ slugInFlight.IdLaw := by
  refine ⟨rfl, (by intro _ _ h; cases h), (by intro _ h; cases h), rfl, by decide +kernel, ?_⟩
  simp only [State.IdLaw]
  decide +kernel

end Sys2Proof.Tests
end

section
/-! What an event's reports and rewrites leave among the own writes (R175, R183): a report handed over stands there until
it is issued, and every part marked in the event is shown as it stands at the event's end. -/

namespace Sys2Proof.Machine

/-! ### Operations that hand over no report -/

/-- `t` differs from `s` by own writes that joined and by parts marked or rewritten; no report was handed over and no
event flag changed, so that every part of the status block reads in `t` as in `s`. -/
structure State.Quiet (s t : State) : Prop where
  reports    : s.Reports t
  producer   : t.producer = s.producer
  eventFlags : t.eventFlags = s.eventFlags
  keeps      : s.KeepsWrites t

theorem State.Quiet.refl (s : State) : s.Quiet s := ⟨.refl s, rfl, rfl, .of_eq rfl rfl⟩

theorem State.Quiet.trans {s t u : State} (h : s.Quiet t) (k : t.Quiet u) : s.Quiet u :=
  ⟨h.reports.trans k.reports, k.producer.trans h.producer, k.eventFlags.trans h.eventFlags, h.keeps.trans k.keeps⟩

theorem State.chooseOrder_quiet (s : State) (xs : List Nat) : s.Quiet (s.chooseOrder xs).2 where
  reports := s.chooseOrder_reports xs
  producer := by
    unfold State.chooseOrder
    split
    · rfl
    · split <;> rfl
  eventFlags := s.chooseOrder_eventFlags xs
  keeps := s.chooseOrder_keeps xs

theorem State.produce_quiet (s : State) (k : OwnKind) (a : Nat) (bs : List WriteBeat) : s.Quiet (s.produce k a bs) where
  reports := s.produce_reports k a bs
  producer := by
    unfold State.produce
    simp only []
    split
    · rfl
    · split <;> rfl
  eventFlags := s.produce_eventFlags k a bs
  keeps := s.produce_keeps k a bs

theorem State.mark_quiet (s : State) (n : Nat) : s.Quiet (s.mark n) where
  reports := s.mark_reports n
  producer := by unfold State.mark; split <;> rfl
  eventFlags := s.mark_eventFlags n
  keeps := s.mark_keeps n

theorem State.rewrite_quiet (s : State) (n : Nat) : s.Quiet (s.rewrite n) where
  reports := s.rewrite_reports n
  producer := by
    unfold State.rewrite
    split
    · exact (State.produce_quiet _ _ _ _).producer
    · rfl
  eventFlags := s.rewrite_eventFlags n
  keeps := s.rewrite_keeps n

theorem State.foldl_rewrite_quiet (xs : List Nat) (s : State) : s.Quiet (xs.foldl State.rewrite s) := by
  induction xs generalizing s with
  | nil => exact .refl s
  | cons x xs ih => exact (s.rewrite_quiet x).trans (ih _)

theorem State.settle_quiet (s : State) : s.Quiet s.settle :=
  (s.chooseOrder_quiet _).trans (State.foldl_rewrite_quiet _ _)

theorem State.raise_producer (s : State) (f : EventFlags → EventFlags) : (s.raise f).producer = s.producer := by
  unfold State.raise
  split
  · rfl
  · exact (State.mark_quiet _ _).producer

/-! ### Parts shown -/

theorem State.Quiet.partBeat {s t : State} (h : s.Quiet t) (n : Nat) : t.partBeat n = s.partBeat n := by
  have hr := h.reports
  simp only [State.partBeat, State.flags, State.reportPending, hr.sources, hr.groups, hr.windows, hr.rate, hr.pc, hr.lock,
    hr.refEnable, hr.jamMode, hr.consumer, hr.indexRing, hr.indexSeq, hr.startKind, hr.cwb, h.producer, h.eventFlags]

theorem State.Quiet.shows {s t : State} (h : s.Quiet t) {n : Nat} (hs : s.Shows n) : t.Shows n := by
  have ht : t.controlBase = s.controlBase := congrArg controlBaseOf h.reports.cwb
  unfold State.Shows
  rw [ht, h.partBeat]
  exact h.keeps.wrote rfl hs

/-- R183: the rewrite of a changed part shows it. -/
theorem State.rewrite_shows {s : State} {n : Nat} (h : n ∈ s.dirty) : (s.rewrite n).Shows n := by
  have hw : (s.rewrite n).Wrote (.statusPart n) (s.controlBase + n * 64) (s.partBeat n) := by
    unfold State.rewrite
    rw [if_pos (List.contains_iff_mem.2 h)]
    exact State.produce_wrote _ rfl _ _
  have hb : (s.rewrite n).controlBase = s.controlBase := congrArg controlBaseOf (s.rewrite_reports n).cwb
  unfold State.Shows
  rwa [hb, (s.rewrite_quiet n).partBeat]

theorem State.foldl_rewrite_shows {n : Nat} {xs : List Nat} {s : State} (hx : n ∈ xs) (hd : n ∈ s.dirty) :
    (xs.foldl State.rewrite s).Shows n := by
  induction xs generalizing s with
  | nil => cases hx
  | cons x xs ih =>
    by_cases h : n = x
    · subst h
      exact (State.foldl_rewrite_quiet xs _).shows (State.rewrite_shows hd)
    · refine ih ((List.mem_cons.1 hx).resolve_left h) ?_
      rw [State.rewrite_dirty]
      exact (List.mem_erase_of_ne h).2 hd

/-- R183: every part changed in an event is shown at the event's end. -/
theorem State.settle_shows {s : State} {n : Nat} (h : n ∈ s.dirty) : s.settle.Shows n := by
  have hf : n ∈ s.dirty.filter fun _ => true := List.mem_filter.2 ⟨h, rfl⟩
  refine State.foldl_rewrite_shows ((s.chooseOrder_perm _).mem_iff.2 hf) ?_
  rwa [State.chooseOrder_dirty]

theorem State.mem_mark_dirty (s : State) (n : Nat) : n ∈ (s.mark n).dirty := by
  unfold State.mark
  split
  · rename_i h
    exact List.contains_iff_mem.1 h
  · simp

/-! ### Reports told -/

/-- The own writes of a report stand as long as they are not issued. -/
theorem State.Tells.keeps {s t u : State} {k : ReportKind} {subject pc d1 d2 : Nat} (h : s.Tells t k subject pc d1 d2)
    (hk : t.KeepsWrites u) : s.Tells u k subject pc d1 d2 :=
  fun he hr => hk.wrote rfl (h he hr)

/-- A report is told of all states that agree on the ring, the report enables and the control window's place. -/
theorem State.Tells.congr {s s' t : State} {k : ReportKind} {subject pc d1 d2 : Nat} (hp : s'.producer = s.producer)
    (hc : s'.consumer = s.consumer) (he : s'.settings = s.settings) (hb : s'.cwb = s.cwb)
    (h : s'.Tells t k subject pc d1 d2) : s.Tells t k subject pc d1 d2 := by
  unfold State.Tells State.reportEnabled State.controlBase at *
  rwa [hp, hc, he, hb] at h

/-- What an event did before its first report may have marked parts and raised flags. -/
theorem State.Tells.of_reports {s s' t : State} {k : ReportKind} {subject pc d1 d2 : Nat} (hr : s.Reports s')
    (hp : s'.producer = s.producer) (h : s'.Tells t k subject pc d1 d2) : s.Tells t k subject pc d1 d2 :=
  h.congr hp hr.consumer hr.settings hr.cwb

/-- R175, R176: the record of a report handed over, if its kind is enabled and the ring has room. -/
theorem State.reportAt_tells (s : State) (pc : Nat) (k : ReportKind) (subject d1 d2 : Nat) :
    s.Tells (s.reportAt pc k subject d1 d2) k subject pc d1 d2 := by
  refine State.Tells.of_reports (s.raise_reports k.raises) (s.raise_producer k.raises) fun he hr => ?_
  unfold State.reportAt
  simp only []
  rw [if_pos he, if_pos hr]
  exact (State.mark_keeps _ _).wrote rfl (State.produce_wrote _ rfl _ _)

theorem EventFlags.UpToOverrun.lockChange {f g : EventFlags} (h : f.UpToOverrun g) : g.lockChange = f.lockChange := by
  rw [h.1]

end Sys2Proof.Machine
end

section
/-! A reference pulse in FREE, HOLDOVER and ACQUIRE (R44 to R47, R51). First what the operations of the monitor do, then
what a pulse does in each state, then the statement `Obligations.PulseAcquires`. -/

namespace Sys2Proof.Machine

/-! ### A change of lock state -/

/-- The state at which a change of lock state is reported: a change out of LOCKED has discarded the scheduled boundaries
and the last used pulse (R52). -/
def State.withLock (s : State) (new : LockState) : State :=
  if s.lock = .locked ∧ new ≠ .locked then { s with lock := new, scheduled := [], lastUsed := none }
  else { s with lock := new }

theorem State.setLock_eq (s : State) (new : LockState) (cause : LockCause) :
    s.setLock new cause =
      ((s.withLock new).reportAt s.pc .lockState 0 (byteWord [s.lock.code, new.code]) cause.code).mark timePart := by
  unfold State.setLock State.withLock State.report
  simp only []
  split <;> rfl

/-- A change of lock state that does not leave LOCKED discards nothing. -/
theorem State.withLock_of_not_locked {s : State} (h : s.lock ≠ .locked) (new : LockState) :
    s.withLock new = { s with lock := new } := if_neg fun k => h k.1

theorem State.withLock_lock (s : State) (new : LockState) : (s.withLock new).lock = new := by
  unfold State.withLock
  split <;> rfl

theorem State.withLock_keeps (s : State) (new : LockState) : s.KeepsWrites (s.withLock new) := by
  unfold State.withLock
  split <;> exact .of_eq rfl rfl

theorem State.Tells.of_withLock {s t : State} {new : LockState} {k : ReportKind} {subject pc d1 d2 : Nat}
    (h : (s.withLock new).Tells t k subject pc d1 d2) : s.Tells t k subject pc d1 d2 := by
  unfold State.withLock at h
  split at h <;> exact h.congr rfl rfl rfl rfl

/-- R56: the LOCK_STATE report of a change, from the state that gave way. -/
theorem State.setLock_tells (s : State) (new : LockState) (cause : LockCause) :
    s.Tells (s.setLock new cause) .lockState 0 s.pc (byteWord [s.lock.code, new.code]) cause.code := by
  rw [State.setLock_eq]
  exact ((State.reportAt_tells _ _ _ _ _ _).of_withLock).keeps (State.mark_keeps _ _)

/-- R180: a change of lock state sets LOCK_CHANGE. -/
theorem State.setLock_lockChange (s : State) (new : LockState) (cause : LockCause) :
    (s.setLock new cause).eventFlags.lockChange = true := by
  rw [State.setLock_eq, State.mark_eventFlags]
  exact (State.reportAt_flags _ _ _ _ _ _).lockChange

theorem State.timePart_mem_setLock_dirty (s : State) (new : LockState) (cause : LockCause) :
    timePart ∈ (s.setLock new cause).dirty := by
  rw [State.setLock_eq]
  exact State.mem_mark_dirty _ _

theorem State.setLock_keeps (s : State) (new : LockState) (cause : LockCause) : s.KeepsWrites (s.setLock new cause) := by
  rw [State.setLock_eq]
  exact (s.withLock_keeps new).trans ((State.reportAt_keeps _ _ _ _ _ _).trans (State.mark_keeps _ _))

theorem State.setLock_reports (s : State) (new : LockState) (cause : LockCause) :
    (s.withLock new).Reports (s.setLock new cause) := by
  rw [State.setLock_eq]
  exact (State.reportAt_reports _ _ _ _ _ _).trans (State.mark_reports _ _)

theorem State.setLock_lock (s : State) (new : LockState) (cause : LockCause) : (s.setLock new cause).lock = new := by
  rw [(s.setLock_reports new cause).lock, State.withLock_lock]

/-- The lock state set after reporting stands as if it had been set before. -/
theorem State.Reports.withLock {s t : State} (h : s.Reports t) (new : LockState) :
    ({ s with lock := new } : State).Reports { t with lock := new } := by
  unfold State.Reports at *
  rw [h]
  rfl

/-- An event that goes on after a change of lock state without touching what reporting wrote ends with the change told,
its flag set and the time beat shown. -/
theorem State.setLock_settle {s u : State} {new : LockState} {cause : LockCause}
    (hk : (s.setLock new cause).KeepsWrites u) (hf : u.eventFlags = (s.setLock new cause).eventFlags)
    (hd : u.dirty = (s.setLock new cause).dirty) :
    s.Tells u.settle .lockState 0 s.pc (byteWord [s.lock.code, new.code]) cause.code ∧
      u.settle.eventFlags.lockChange = true ∧ u.settle.Shows timePart := by
  refine ⟨(s.setLock_tells new cause).keeps (hk.trans u.settle_quiet.keeps), ?_, State.settle_shows ?_⟩
  · rw [State.settle_eventFlags, hf]
    exact s.setLock_lockChange new cause
  · rw [hd]
    exact s.timePart_mem_setLock_dirty new cause

/-! ### Beginning an attempt -/

theorem State.Reports.beginAttempt {s t : State} (h : s.Reports t) : s.beginAttempt.Reports t.beginAttempt := by
  unfold State.Reports at *
  rw [h]
  rfl

/-- R44, R51: the end of an event in which a pulse moves the monitor to ACQUIRE and begins an attempt. -/
theorem State.setLock_beginAttempt_settle {s : State} {old : LockState} {cause : LockCause} (hl : s.lock = old)
    (ho : old ≠ .locked) :
    ({ s with lock := .acquire, acqRun := some { previous := s.now, good := 0 } } : State).Reports
        (s.setLock .acquire cause).beginAttempt.settle ∧
      s.Tells (s.setLock .acquire cause).beginAttempt.settle .lockState 0 s.pc
        (byteWord [old.code, LockState.acquire.code]) cause.code ∧
      (s.setLock .acquire cause).beginAttempt.settle.eventFlags.lockChange = true ∧
      (s.setLock .acquire cause).beginAttempt.settle.Shows timePart := by
  subst hl
  have hr := s.setLock_reports .acquire cause
  rw [State.withLock_of_not_locked ho] at hr
  exact ⟨hr.beginAttempt.trans (State.settle_reports _),
    State.setLock_settle (u := (s.setLock .acquire cause).beginAttempt) (.of_eq rfl rfl) rfl rfl⟩

/-! ### Entering LOCKED -/

/-- R46: what a pulse that completes the acquisition sets before the change to LOCKED is reported. -/
def State.atLock (s : State) : State :=
  { s with
    lastUsed := some s.now, usedNext := false, attempts := 0, acqRun := none, excursion := false,
    strict := if s.holdMark then 250 else 0, holdMark := false,
    scheduled := if s.rate.period ≤ 2 * (s.boundaryOffset + s.phase) then [s.now + s.boundaryOffset] else [] }

theorem State.enterLocked_eq (s : State) : s.enterLocked = s.atLock.setLock .locked .lock := rfl

/-- R46: the end of an event in which the monitor enters LOCKED. -/
theorem State.enterLocked_settle {s : State} (hl : s.lock = .acquire) :
    ({ s.atLock with lock := .locked } : State).Reports s.enterLocked.settle ∧
      s.Tells s.enterLocked.settle .lockState 0 s.pc (byteWord [1, 2]) 2 ∧ s.enterLocked.settle.Shows timePart := by
  have hc : s.atLock.lock = .acquire := hl
  have hr := s.atLock.setLock_reports .locked .lock
  rw [State.withLock_of_not_locked (by simp [hc])] at hr
  rw [State.enterLocked_eq]
  obtain ⟨tells, -, shows⟩ := State.setLock_settle (s := s.atLock) (new := .locked) (cause := .lock) (.of_eq rfl rfl) rfl rfl
  rw [hc] at tells
  exact ⟨hr.trans (State.settle_reports _), tells.congr rfl rfl rfl rfl, shows⟩

/-! ### Failing an attempt -/

/-- R47: a failed attempt, counted, with the run empty. -/
def State.attemptFailed (s : State) : State := { s with attempts := s.attempts + 1, acqRun := none }

theorem State.setRefEnable_reports (s : State) (b : Bool) : ({ s with refEnable := b } : State).Reports (s.setRefEnable b) := by
  unfold State.setRefEnable
  split
  · rename_i h
    subst h
    rfl
  · exact State.mark_reports _ _

theorem State.setRefEnable_producer (s : State) (b : Bool) : (s.setRefEnable b).producer = s.producer := by
  unfold State.setRefEnable
  split
  · rfl
  · exact (State.mark_quiet _ _).producer

/-- R47: below the attempt limit a failed attempt is counted and the run becomes empty. -/
theorem State.failAttempt_below {s : State} (h : s.attempts + 1 < s.ref.attemptLimit) (interval : Option Nat) :
    s.failAttempt interval = s.attemptFailed :=
  if_neg (Nat.not_le.2 h)

/-- R47: the reference is disabled and its rejection reported, before the state becomes FREE (R56). -/
def State.rejected (s : State) (interval : Option Nat) : State :=
  (s.attemptFailed.setRefEnable false).reportAt s.pc .referenceRejected 0 (s.attempts + 1) (interval.getD (2 ^ 64 - 1))

theorem State.rejected_reports (s : State) (interval : Option Nat) :
    ({ s.attemptFailed with refEnable := false } : State).Reports (s.rejected interval) :=
  (State.setRefEnable_reports _ _).trans (State.reportAt_reports _ _ _ _ _ _)

theorem State.rejected_tells (s : State) (interval : Option Nat) :
    s.Tells (s.rejected interval) .referenceRejected 0 s.pc (s.attempts + 1) (interval.getD (2 ^ 64 - 1)) := by
  have h : ({ s.attemptFailed with refEnable := false } : State).Tells (s.rejected interval) .referenceRejected 0 s.pc
      (s.attempts + 1) (interval.getD (2 ^ 64 - 1)) :=
    (State.reportAt_tells _ _ _ _ _ _).of_reports (State.setRefEnable_reports _ _) (State.setRefEnable_producer _ _)
  exact h.congr rfl rfl rfl rfl

/-- R47: at the attempt limit the reference is disabled and rejected, and the state becomes FREE. -/
theorem State.failAttempt_at_limit {s : State} (h : s.ref.attemptLimit ≤ s.attempts + 1) (interval : Option Nat) :
    s.failAttempt interval = (s.rejected interval).setLock .free .rejected := by
  have hp : (s.attemptFailed.setRefEnable false).pc = s.pc := (s.attemptFailed.setRefEnable_reports false).pc
  have hf : s.failAttempt interval = ((s.attemptFailed.setRefEnable false).report .referenceRejected 0
      s.attemptFailed.attempts (interval.getD (2 ^ 64 - 1))).setLock .free .rejected := by
    unfold State.failAttempt
    cases interval <;> exact if_pos h
  rw [hf, State.report, hp]
  rfl

/-- R47: the end of an event in which an attempt fails at the attempt limit. -/
theorem State.failAttempt_settle {s : State} (hl : s.lock ≠ .locked) (h : s.ref.attemptLimit ≤ s.attempts + 1)
    (interval : Option Nat) :
    ({ s.attemptFailed with refEnable := false, lock := .free } : State).Reports (s.failAttempt interval).settle ∧
      s.Tells (s.failAttempt interval).settle .referenceRejected 0 s.pc (s.attempts + 1) (interval.getD (2 ^ 64 - 1)) ∧
      (s.failAttempt interval).settle.eventFlags.lockChange = true ∧ (s.failAttempt interval).settle.Shows timePart := by
  have hr := s.rejected_reports interval
  have free := (s.rejected interval).setLock_reports .free .rejected
  rw [State.withLock_of_not_locked (by rw [hr.lock]; exact hl)] at free
  obtain ⟨-, flag, shows⟩ := State.setLock_settle (s := s.rejected interval) (new := .free) (cause := .rejected)
    (.of_eq rfl rfl) rfl rfl
  rw [State.failAttempt_at_limit h]
  exact ⟨((hr.withLock .free).trans free).trans (State.settle_reports _),
    (s.rejected_tells interval).keeps ((State.setLock_keeps _ _ _).trans (State.settle_quiet _).keeps), flag, shows⟩

/-! ### A pulse in each lock state -/

/-- R44: a pulse in FREE with the reference disabled has no effect. -/
theorem State.refPulse_disabled {s : State} (hl : s.lock = .free) (he : s.refEnable = false) : s.refPulse = s := by
  simp [State.refPulse, hl, he]

/-- R44: a pulse in FREE with the reference enabled. -/
theorem State.refPulse_free {s : State} (hl : s.lock = .free) (he : s.refEnable = true) :
    s.refPulse = (({ s with holdMark := false } : State).setLock .acquire .pulse).beginAttempt := by
  simp [State.refPulse, hl, he]

/-- R51: a pulse in HOLDOVER. -/
theorem State.refPulse_holdover {s : State} (hl : s.lock = .holdover) :
    s.refPulse = (({ s with holdMark := true } : State).setLock .acquire .returned).beginAttempt := by
  simp [State.refPulse, hl]

/-- R45: a pulse in ACQUIRE. -/
theorem State.refPulse_acquire {s : State} (hl : s.lock = .acquire) : s.refPulse = s.acquirePulse := by
  simp [State.refPulse, hl]

/-- R45: the interval that a pulse taken now ends is good. -/
def State.GoodInterval (s : State) (run : AcqRun) : Prop :=
  s.interval ≤ s.now - run.previous + s.ref.tolerance ∧ s.now - run.previous ≤ s.interval + s.ref.tolerance

theorem State.acquirePulse_first {s : State} (hr : s.acqRun = none) : s.acquirePulse = s.beginAttempt := by
  simp only [State.acquirePulse, hr]

/-- R45: a good interval short of the lock count. -/
theorem State.acquirePulse_good {s : State} {run : AcqRun} (hr : s.acqRun = some run) (hg : s.GoodInterval run)
    (hc : run.good + 1 < s.ref.lockCount) :
    s.acquirePulse = { s with acqRun := some { previous := s.now, good := run.good + 1 } } := by
  simp only [State.acquirePulse, hr]
  exact (if_pos hg).trans (if_neg (Nat.not_le.2 hc))

/-- R45, R46: the good interval that reaches the lock count. -/
theorem State.acquirePulse_lock {s : State} {run : AcqRun} (hr : s.acqRun = some run) (hg : s.GoodInterval run)
    (hc : s.ref.lockCount ≤ run.good + 1) : s.acquirePulse = s.enterLocked := by
  simp only [State.acquirePulse, hr]
  exact (if_pos hg).trans (if_pos hc)

/-- R45: an interval that is not good fails the attempt; a pulse that leaves the monitor in ACQUIRE begins the next. -/
theorem State.acquirePulse_bad {s : State} {run : AcqRun} (hr : s.acqRun = some run) (hg : ¬s.GoodInterval run) :
    s.acquirePulse =
      if (s.failAttempt (some (s.now - run.previous))).lock = .acquire then
        (s.failAttempt (some (s.now - run.previous))).beginAttempt
      else s.failAttempt (some (s.now - run.previous)) := by
  simp only [State.acquirePulse, hr]
  exact if_neg hg

/-- R45: an interval that is not good, below the attempt limit: the pulse begins the next attempt. -/
theorem State.acquirePulse_bad_below {s : State} {run : AcqRun} (hl : s.lock = .acquire) (hr : s.acqRun = some run)
    (hg : ¬s.GoodInterval run) (ha : s.attempts + 1 < s.ref.attemptLimit) :
    s.acquirePulse = s.attemptFailed.beginAttempt := by
  rw [State.acquirePulse_bad hr hg, State.failAttempt_below ha]
  exact if_pos hl

/-- R45, R47: an interval that is not good, at the attempt limit: the pulse begins no attempt. -/
theorem State.acquirePulse_bad_at_limit {s : State} {run : AcqRun} (hr : s.acqRun = some run)
    (hg : ¬s.GoodInterval run) (ha : s.ref.attemptLimit ≤ s.attempts + 1) :
    s.acquirePulse = s.failAttempt (some (s.now - run.previous)) := by
  have hf : (s.failAttempt (some (s.now - run.previous))).lock = .free := by
    rw [State.failAttempt_at_limit ha, State.setLock_lock]
  rw [State.acquirePulse_bad hr hg, if_neg (by simp [hf])]

/-! ### The command -/

theorem exec_refPulse {s u : State} {dt : Nat} (hs : s.Calm) (hu : (s.wait dt).refPulse = u) :
    exec (.refPulse dt) s = .next u.settle := by
  obtain ⟨running, -⟩ := hs
  rw [← hu]
  exact congrArg Host.Outcome.next (State.event_running running dt State.refPulse)

/-- A pulse that changes no part of the status block is whole with its effect on the monitor. -/
theorem exec_refPulse_clean {s u : State} {dt : Nat} (hs : s.Calm) (hu : (s.wait dt).refPulse = u)
    (hd : u.dirty = s.dirty) : exec (.refPulse dt) s = .next u := by
  rw [exec_refPulse hs hu, u.settle_clean (hd.trans hs.2)]

/-- R44, R51: a pulse in FREE or HOLDOVER. -/
theorem exec_refPulse_idle {s : State} (hs : s.Calm) (dt : Nat) :
    let u (mark : Bool) : State := { s.wait dt with
      lock := .acquire, holdMark := mark, acqRun := some { previous := (s.wait dt).now, good := 0 } }
    (s.lock = .free → s.refEnable = false → exec (.refPulse dt) s = .next (s.wait dt)) ∧
    (s.lock = .free → s.refEnable = true → ∃ t, exec (.refPulse dt) s = .next t ∧ (u false).Reports t ∧
      s.Tells t .lockState 0 s.pc (byteWord [0, 1]) 1 ∧ t.eventFlags.lockChange = true ∧ t.Shows timePart) ∧
    (s.lock = .holdover → ∃ t, exec (.refPulse dt) s = .next t ∧ (u true).Reports t ∧
      s.Tells t .lockState 0 s.pc (byteWord [3, 1]) 5 ∧ t.eventFlags.lockChange = true ∧ t.Shows timePart) := by
  refine ⟨fun hl he => ?_, fun hl he => ?_, fun hl => ?_⟩
  · exact exec_refPulse_clean hs (State.refPulse_disabled hl he) rfl
  · obtain ⟨reports, tells, rest⟩ := State.setLock_beginAttempt_settle
      (s := { s.wait dt with holdMark := false }) (old := .free) (cause := .pulse) hl (by decide)
    exact ⟨_, exec_refPulse hs (State.refPulse_free hl he), reports, tells.congr rfl rfl rfl rfl, rest⟩
  · obtain ⟨reports, tells, rest⟩ := State.setLock_beginAttempt_settle
      (s := { s.wait dt with holdMark := true }) (old := .holdover) (cause := .returned) hl (by decide)
    exact ⟨_, exec_refPulse hs (State.refPulse_holdover hl), reports, tells.congr rfl rfl rfl rfl, rest⟩

/-- Settles O31: the pulse by the lock state, and in ACQUIRE by the run, the interval, the lock count and the attempt
limit. -/
theorem pulseAcquires : Obligations.PulseAcquires := by
  refine ⟨fun dt s hs => exec_refPulse_idle hs dt, fun dt s hs hl => ?_⟩
  have acquires : (s.wait dt).refPulse = (s.wait dt).acquirePulse := State.refPulse_acquire hl
  refine ⟨fun hr => ?_, fun run hr => ⟨fun hg hc => ?_, fun hg hc => ?_, fun hg ha => ?_, fun hg ha => ?_⟩⟩
  · exact exec_refPulse_clean hs (acquires.trans (State.acquirePulse_first hr)) rfl
  · exact exec_refPulse_clean hs (acquires.trans (State.acquirePulse_good hr hg hc)) rfl
  · obtain ⟨reports, tells, shows⟩ := State.enterLocked_settle (s := s.wait dt) hl
    exact ⟨_, exec_refPulse hs (acquires.trans (State.acquirePulse_lock hr hg hc)), reports,
      tells.congr rfl rfl rfl rfl, shows⟩
  · exact exec_refPulse_clean hs (acquires.trans (State.acquirePulse_bad_below hl hr hg ha)) rfl
  · obtain ⟨reports, tells, flag, -⟩ := State.failAttempt_settle (s := s.wait dt) (by simp [hl]) ha
      (some ((s.wait dt).now - run.previous))
    exact ⟨_, exec_refPulse hs (acquires.trans (State.acquirePulse_bad_at_limit hr hg ha)), reports,
      tells.congr rfl rfl rfl rfl, flag⟩

end Sys2Proof.Machine
end

section
/-! The stamps of camera, sound and slate headers (R93 to R96): the spans of whole and partial cadence cycles, then the
division of a distance by the speed ratio, the cadence and the frame period, then the statements
`Obligations.CameraStampRule`, `Obligations.SoundStampRule` and `Obligations.SlateStampRule`. -/

namespace Sys2Proof.Machine

/-! ### The rate table -/

theorem Rate.le_period (r : Rate) : 450000 ≤ r.period := by
  revert r
  decide

/-! ### Sample spans (R34 to R36) -/

theorem partialSpan_add (r : Rate) (sr : SampleRate) (c m n : Nat) :
    partialSpan r sr c (m + n) = partialSpan r sr c m + partialSpan r sr ((c + m) % 5) n := by
  induction n with
  | zero => rfl
  | succ n ih =>
    have position : (c + (m + n)) % 5 = ((c + m) % 5 + n) % 5 := by omega
    rw [← Nat.add_assoc m n 1, partialSpan, partialSpan, ih, position, Nat.add_assoc]

/-- A whole cycle has the same samples from every cadence position. -/
theorem partialSpan_five (r : Rate) (sr : SampleRate) {c : Nat} (hc : c < 5) :
    partialSpan r sr c 5 = partialSpan r sr 0 5 := by
  have fromZero := partialSpan_add r sr 0 c (5 - c)
  have fromHere := partialSpan_add r sr c (5 - c) c
  rw [Nat.zero_add, Nat.mod_eq_of_lt hc, Nat.add_sub_cancel' (Nat.le_of_lt hc)] at fromZero
  rw [Nat.add_sub_cancel' (Nat.le_of_lt hc), Nat.mod_self, Nat.sub_add_cancel (Nat.le_of_lt hc)] at fromHere
  rw [fromZero, fromHere, Nat.add_comm]

theorem partialSpan_five_pos (r : Rate) (sr : SampleRate) : 0 < partialSpan r sr 0 5 := by
  revert r
  cases sr <;> decide

/-- The frames of a cycle before a cadence position and those from it on make up the cycle. -/
theorem partialSpan_add_rest (r : Rate) (sr : SampleRate) {c m : Nat} (hc : c < 5) (hm : m ≤ 5) :
    partialSpan r sr c m + partialSpan r sr ((c + m) % 5) (5 - m) = partialSpan r sr 0 5 := by
  rw [← partialSpan_add, Nat.add_sub_cancel' hm, partialSpan_five r sr hc]

theorem spanNat_cycles (r : Rate) (sr : SampleRate) (c a : Nat) {m : Nat} (hm : m < 5) :
    spanNat r sr c (a * 5 + m) = a * partialSpan r sr 0 5 + partialSpan r sr c m := by
  have cycles : (a * 5 + m) / 5 = a := by omega
  have rest : (a * 5 + m) % 5 = m := by omega
  rw [spanNat, cycles, rest]

theorem cadencePosition_cycles (c m : Nat) (a : Int) : cadencePosition c (a * 5 + m) = (c + m) % 5 := by
  unfold cadencePosition
  omega

/-- R36: the span of `a` whole cycles, forward or backward, and of `m` frames more. -/
theorem span_cycles (r : Rate) (sr : SampleRate) {c m : Nat} (hc : c < 5) (hm : m < 5) (a : Int) :
    span r sr c (a * 5 + m) = a * partialSpan r sr 0 5 + partialSpan r sr c m := by
  unfold span
  split
  case isTrue h =>
    obtain ⟨b, rfl⟩ : ∃ b : Nat, a = b := ⟨a.toNat, by omega⟩
    rw [show ((b : Int) * 5 + m).toNat = b * 5 + m by omega, spanNat_cycles r sr c b hm, Int.natCast_add,
      Int.natCast_mul]
  case isFalse h =>
    rw [cadencePosition_cycles]
    rcases Nat.eq_zero_or_pos m with rfl | pos
    · obtain ⟨b, rfl⟩ : ∃ b : Nat, a = -b := ⟨(-a).toNat, by omega⟩
      have none : ∀ c', partialSpan r sr c' 0 = 0 := fun _ => rfl
      rw [show (-(-(b : Int) * 5 + (0 : Nat))).toNat = b * 5 + 0 by omega, spanNat_cycles r sr _ b hm, none, none,
        Int.natCast_add, Int.natCast_mul, Int.neg_mul]
      omega
    · -- one of the cycles counted backward is broken at the frame reached, `5 - m` frames of it being left
      obtain ⟨b, rfl⟩ : ∃ b : Nat, a = -(b + 1) := ⟨(-a - 1).toNat, by omega⟩
      have broken := partialSpan_add_rest r sr hc (Nat.le_of_lt hm)
      rw [show (-(-((b : Int) + 1) * 5 + m)).toNat = b * 5 + (5 - m) by omega, spanNat_cycles r sr _ b (by omega),
        Int.natCast_add, Int.natCast_mul, Int.neg_mul, Int.add_mul, Int.one_mul]
      omega

/-- R35, R36: each frame adds its own samples to the span. -/
theorem span_succ (r : Rate) (sr : SampleRate) {c : Nat} (hc : c < 5) (k : Int) :
    span r sr c (k + 1) = span r sr c k + samplesPerFrame r sr (cadencePosition c k) := by
  obtain ⟨a, m, hm, rfl⟩ : ∃ (a : Int) (m : Nat), m < 5 ∧ k = a * 5 + m := ⟨k / 5, (k % 5).toNat, by omega, by omega⟩
  have next : partialSpan r sr c (m + 1) = partialSpan r sr c m + samplesPerFrame r sr ((c + m) % 5) := rfl
  rw [cadencePosition_cycles, span_cycles r sr hc hm]
  rcases Nat.lt_or_ge (m + 1) 5 with inside | last
  · rw [show a * 5 + (m : Int) + 1 = a * 5 + (m + 1 : Nat) by omega, span_cycles r sr hc inside, next,
      Int.natCast_add, Int.add_assoc]
  · obtain rfl : m = 4 := by omega
    have whole : partialSpan r sr c (4 + 1) = partialSpan r sr 0 5 := partialSpan_five r sr hc
    rw [next] at whole
    have none : partialSpan r sr c 0 = 0 := rfl
    rw [show a * 5 + ((4 : Nat) : Int) + 1 = (a + 1) * 5 + (0 : Nat) by omega, span_cycles r sr hc (by omega), none,
      Int.add_mul, Int.one_mul]
    omega

/-! ### The frame that holds a distance (R95) -/

theorem framesWithin_spec (r : Rate) (sr : SampleRate) (c rest n : Nat) :
    let m := framesWithin r sr c rest n
    m ≤ n ∧ partialSpan r sr c m ≤ rest ∧ (m < n → rest < partialSpan r sr c (m + 1)) := by
  induction n with
  | zero => simp [framesWithin, partialSpan]
  | succ n ih =>
    obtain ⟨le, below, above⟩ := ih
    rw [framesWithin]
    split
    case isTrue h => exact ⟨Nat.le_refl _, h, fun lt => absurd lt (Nat.lt_irrefl _)⟩
    case isFalse h =>
      refine ⟨by omega, below, fun _ => ?_⟩
      rcases Nat.lt_or_eq_of_le le with lt | eq
      · exact above lt
      · rw [eq]
        exact Nat.lt_of_not_le h

theorem soundFrames_spec (r : Rate) (sr : SampleRate) {c : Nat} (hc : c < 5) (d : Int) :
    span r sr c (soundFrames r sr c d) ≤ d ∧ d < span r sr c (soundFrames r sr c d + 1) := by
  have pos : (0 : Int) < partialSpan r sr 0 5 := by exact_mod_cast partialSpan_five_pos r sr
  have quotRem : d / (partialSpan r sr 0 5 : Int) * partialSpan r sr 0 5 + d % (partialSpan r sr 0 5 : Int) = d :=
    Int.ediv_mul_add_emod d _
  have nonneg := Int.emod_nonneg d (Int.ne_of_gt pos)
  have inCycle := Int.emod_lt_of_pos d pos
  obtain ⟨le, below, above⟩ := framesWithin_spec r sr c (d % (partialSpan r sr 0 5 : Int)).toNat 4
  rw [span_succ r sr hc]
  simp only [soundFrames]
  generalize framesWithin r sr c (d % (partialSpan r sr 0 5 : Int)).toNat 4 = m at *
  have next : partialSpan r sr c (m + 1) = partialSpan r sr c m + samplesPerFrame r sr ((c + m) % 5) := rfl
  rw [cadencePosition_cycles, span_cycles r sr hc (by omega)]
  have beyond : d % (partialSpan r sr 0 5 : Int) < partialSpan r sr c (m + 1) := by
    rcases Nat.lt_or_eq_of_le le with lt | rfl
    · have := above lt
      omega
    · rwa [partialSpan_five r sr hc]
  omega

/-! ### The anchor selected (R93) -/

theorem selectAnchor_newest {p : Word64} {a : Anchor} {newer older : List Anchor}
    (hn : ∀ b ∈ newer, p < b.position) (ha : a.position ≤ p) : selectAnchor (newer ++ a :: older) p = (a, false) := by
  have passed : newer.find? (fun b => decide (b.position ≤ p)) = none := by simpa using hn
  have found : (newer ++ a :: older).find? (fun b => decide (b.position ≤ p)) = some a := by
    rw [List.find?_append, passed, Option.none_or, List.find?_cons_of_pos (by simpa using ha)]
  simp only [selectAnchor, found]

theorem selectAnchor_oldest {p : Word64} {a : Anchor} {newer : List Anchor}
    (hn : ∀ b ∈ newer, p < b.position) (ha : p < a.position) : selectAnchor (newer ++ [a]) p = (a, true) := by
  have passed : (newer ++ [a]).find? (fun b => decide (b.position ≤ p)) = none := by
    simpa [or_imp, forall_and] using ⟨hn, ha⟩
  simp only [selectAnchor, passed]
  simp

/-! ### The stamp of a source's header -/

theorem Source.stampOf_camera {x : Source} (hk : x.kind = .camera) (r : Rate) (p : Word64) (arrivalPc phase : Nat) :
    let a := selectAnchor x.anchors p
    x.stampOf r p arrivalPc phase = (cameraStamp r a.1.pc x.speedRatio (p - a.1.position).toInt, a.2) := by
  unfold Source.stampOf
  rw [hk]
  rfl

theorem Source.stampOf_sound {x : Source} (hk : x.kind = .sound) (r : Rate) (p : Word64) (arrivalPc phase : Nat) :
    let a := selectAnchor x.anchors p
    x.stampOf r p arrivalPc phase =
      (soundStamp r x.sampleRate a.1.pc a.1.base (p - a.1.position).toInt, a.2) := by
  unfold Source.stampOf
  rw [hk]
  rfl

theorem Source.stampOf_slate {x : Source} (hk : x.kind = .slate) (r : Rate) (p : Word64) (arrivalPc phase : Nat) :
    x.stampOf r p arrivalPc phase = (slateStamp r arrivalPc phase x.latencyTicks, false) := by
  unfold Source.stampOf
  rw [hk]

/-! ### The latency of a slate (R96) -/

/-- R96: the fraction of a slate's stamp is kept below the period. -/
theorem cap_eq_min {n : Nat} (hn : 0 < n) (f : Nat) : (if n ≤ f then n - 1 else f) = min f (n - 1) := by
  split <;> omega

theorem slateStamp_of_le {r : Rate} {phase latency : Nat} (pc : Nat) (h : latency ≤ phase) :
    slateStamp r pc phase latency = { count := pc, frac := min (phase - latency) (r.period - 1) } := by
  have period := r.le_period
  simp only [slateStamp, if_pos h, cap_eq_min (show 0 < r.period by omega)]

/-- The frames a slate's stamp goes back: the fewest periods that make up what the phase falls short of the latency. -/
def framesBack (r : Rate) (phase latency : Nat) : Nat :=
  (latency - phase + r.period - 1) / r.period

theorem framesBack_spec {r : Rate} {phase latency : Nat} (h : phase < latency) :
    latency ≤ phase + framesBack r phase latency * r.period ∧
      phase + (framesBack r phase latency - 1) * r.period < latency := by
  have period := r.le_period
  have upper := Nat.div_mul_le_self (latency - phase + r.period - 1) r.period
  have lower := Nat.lt_div_mul_add (a := latency - phase + r.period - 1) (b := r.period) (by omega)
  rw [framesBack, Nat.sub_mul]
  omega

/-- A latency of 20 bits is shorter than three of the shortest periods. -/
theorem framesBack_le_three {r : Rate} {phase latency : Nat} (h : latency ≤ 1048575) :
    framesBack r phase latency ≤ 3 := by
  have period := r.le_period
  refine Nat.le_of_lt_succ (Nat.div_lt_of_lt_mul ?_)
  omega

theorem slateStamp_of_lt {r : Rate} {phase latency : Nat} (pc : Nat) (h : phase < latency) :
    slateStamp r pc phase latency =
      { count := countAdd r pc (-(framesBack r phase latency : Int))
        frac := min (phase + framesBack r phase latency * r.period - latency) (r.period - 1) } := by
  have period := r.le_period
  have frac : phase + framesBack r phase latency * r.period - latency =
      framesBack r phase latency * r.period - (latency - phase) := by omega
  rw [frac]
  simp only [slateStamp, if_neg (Nat.not_le_of_lt h), cap_eq_min (show 0 < r.period by omega), framesBack]

/-! ### The statements -/

/-- Settles O50: the quotient and the remainder of the distance by the speed ratio. -/
theorem cameraStampRule : Obligations.CameraStampRule := by
  refine ⟨fun r pc q d hq => ?_, fun x r p arrivalPc phase hk => Source.stampOf_camera hk r p arrivalPc phase,
    fun p a newer older hn => ⟨selectAnchor_newest hn, ?_⟩⟩
  · have pos : (0 : Int) < q := by omega
    have nonneg := Int.emod_nonneg d (Int.ne_of_gt pos)
    have below := Int.emod_lt_of_pos d pos
    have quotRem := Int.ediv_mul_add_emod d q
    exact ⟨d / q, (d % q).toNat, by omega, by omega, rfl⟩
  · rintro ha rfl
    exact selectAnchor_oldest hn ha

/-- Settles O51: the frame is found in its cadence cycle, and the samples left are fewer than the next frame adds. -/
theorem soundStampRule : Obligations.SoundStampRule := by
  refine ⟨fun r sr pc c d hc => ?_, fun x r p arrivalPc phase hk => Source.stampOf_sound hk r p arrivalPc phase⟩
  obtain ⟨below, above⟩ := soundFrames_spec r sr hc d
  refine ⟨soundFrames r sr c d, below, above, rfl, ?_⟩
  rw [span_succ r sr hc] at above
  simp only [soundStamp]
  omega

/-- Settles O52: the latency is within the phase, or `framesBack` frames are taken from the count. -/
theorem slateStampRule : Obligations.SlateStampRule := by
  refine ⟨fun r pc phase latency => ⟨slateStamp_of_le pc, fun h => ?_⟩,
    fun x r p arrivalPc phase hk => Source.stampOf_slate hk r p arrivalPc phase⟩
  obtain ⟨enough, fewest⟩ := framesBack_spec (r := r) h
  exact ⟨framesBack r phase latency, enough, fewest, slateStamp_of_lt pc h, framesBack_le_three⟩

end Sys2Proof.Machine
end

section
/-! The report ring (R176), the attention flags with the ATTN line (R180, R181), and the writes of the consumer word with
the beats taken as nothing (R159, R177). First the flag of a report and the set of flags read by its bits, then a report
handed over by the state of its kind and of the ring, then the consumer write, then the statements
`Obligations.ReportRingRule` and `Obligations.ConsumerAndIgnoredWrites`. -/

namespace Sys2Proof.Machine

/-! ### The flag of a report's event (R180) -/

theorem ReportKind.raises_eq (kind : ReportKind) (f : EventFlags) : kind.raises f =
    { f with
      lockChange := f.lockChange || decide (kind = .lockState ∨ kind = .referenceRejected)
      slip := f.slip || decide (kind = .slip ∨ kind = .clapUnmatched)
      takeChange := f.takeChange || decide (kind = .takeState)
      window := f.window || decide (kind = .heldTimeout ∨ kind = .slugServed ∨ kind = .heldListFull) } := by
  cases kind <;> simp [ReportKind.raises]

/-! ### The set of flags as a number (R180, R185) -/

theorem flagNat_eq_toNat (b : Bool) : flagNat b = b.toNat := by
  cases b <;> rfl

theorem toNat_ofBoolListLE_nil : (BitVec.ofBoolListLE []).toNat = 0 := rfl

theorem toNat_ofBoolListLE_cons (b : Bool) (bs : List Bool) :
    (BitVec.ofBoolListLE (b :: bs)).toNat = (BitVec.ofBoolListLE bs).toNat * 2 + b.toNat :=
  BitVec.toNat_concat _ b

/-- The eight attention flags in the order of their bits. -/
def State.flagBits (s : State) : List Bool :=
  let f := s.eventFlags
  [decide (s.producer ≠ s.consumer), f.overrun, f.lockChange, f.sourceFault, f.slip, f.takeChange, f.window, f.commandDone]

theorem State.flags_eq_ofBoolListLE (s : State) : s.flags = (BitVec.ofBoolListLE s.flagBits).toNat := by
  have pending : s.reportPending = decide (s.producer ≠ s.consumer) :=
    Bool.eq_iff_iff.2 (by simp only [State.reportPending, bne_iff_ne, decide_eq_true_eq])
  simp only [State.flags, EventFlags.toNat, pending, flagNat_eq_toNat, State.flagBits, toNat_ofBoolListLE_cons,
    toNat_ofBoolListLE_nil]
  omega

theorem State.flags_testBit (s : State) : (List.range 8).map s.flags.testBit = s.flagBits := by
  refine List.ext_getElem rfl fun k _ lt => ?_
  rw [List.getElem_map, List.getElem_range, s.flags_eq_ofBoolListLE, BitVec.testBit_toNat, BitVec.getLsbD_ofBoolListLE,
    List.getD_eq_getElem?_getD, List.getElem?_eq_getElem lt, Option.getD_some]

theorem State.flags_lt (s : State) : s.flags < 256 := by
  have eight : s.flagBits.length = 8 := rfl
  rw [s.flags_eq_ofBoolListLE]
  exact Nat.lt_of_lt_of_eq (BitVec.ofBoolListLE s.flagBits).isLt (congrArg (Nat.pow 2) eight)

/-! ### The ATTN line (R181) -/

theorem exists_getLsbD_iff_ne_zero {w : Nat} (x : BitVec w) : (∃ k, k < w ∧ x.getLsbD k = true) ↔ x ≠ 0 := by
  constructor
  · rintro ⟨k, -, set⟩ rfl
    exact Bool.false_ne_true (BitVec.getLsbD_zero.symm.trans set)
  · intro ne
    refine Classical.byContradiction fun clear => ne (BitVec.eq_of_getLsbD_eq fun k lt => ?_)
    have bit : x.getLsbD k ≠ true := fun set => clear ⟨k, lt, set⟩
    rw [BitVec.ofNat_eq_ofNat, BitVec.getLsbD_zero]
    exact Bool.eq_false_iff.2 bit

theorem State.attn_iff (s : State) : s.attn = true ↔
    s.rstn = true ∧ ∃ k, k < 8 ∧ s.flags.testBit k = true ∧ s.settings[0].getLsbD k = true := by
  have enabled (k : Nat) : (k < 8 ∧ (BitVec.ofNat 8 s.flags &&& s.settings[0].extractLsb' 0 8).getLsbD k = true) ↔
      (k < 8 ∧ s.flags.testBit k = true ∧ s.settings[0].getLsbD k = true) := by
    refine and_congr_right fun lt => ?_
    simp only [BitVec.getLsbD_and, BitVec.getLsbD_ofNat, BitVec.getLsbD_extractLsb', lt, decide_true, Bool.true_and,
      Nat.zero_add, Bool.and_eq_true]
  rw [State.attn, Bool.and_eq_true, bne_iff_ne, ← exists_getLsbD_iff_ne_zero, exists_congr enabled]

/-! ### A report handed over (R175, R176) -/

theorem State.reportEnabled_start (s : State) : s.reportEnabled .start = true := rfl

theorem State.raise_ownQueue (s : State) (f : EventFlags → EventFlags) : (s.raise f).ownQueue = s.ownQueue := by
  unfold State.raise State.mark
  split
  · rfl
  · split <;> rfl

theorem State.raise_offered (s : State) (f : EventFlags → EventFlags) : (s.raise f).offered = s.offered := by
  unfold State.raise State.mark
  split
  · rfl
  · split <;> rfl

theorem State.raise_reportEnabled (s : State) (f : EventFlags → EventFlags) (kind : ReportKind) :
    (s.raise f).reportEnabled kind = s.reportEnabled kind := by
  rw [State.reportEnabled, (s.raise_reports f).settings, State.reportEnabled]

theorem State.raise_consumer (s : State) (f : EventFlags → EventFlags) : (s.raise f).consumer = s.consumer :=
  (s.raise_reports f).consumer

section
variable {s : State} {kind : ReportKind} (pc subject d1 d2 : Nat)

/-- With its kind off a report only raises its flag. -/
theorem State.reportAt_disabled (off : s.reportEnabled kind = false) :
    s.reportAt pc kind subject d1 d2 = s.raise kind.raises := by
  simp [State.reportAt, State.raise_reportEnabled, off]

/-- With room in the ring the record is produced at the producer count. -/
theorem State.reportAt_room (on : s.reportEnabled kind = true) (room : s.producer - s.consumer < 15359) :
    s.reportAt pc kind subject d1 d2 =
      (({ s.raise kind.raises with producer := s.producer + 1 }).produceControl (.report s.producer)
        (reportOffset s.producer) (reportBeat s.producer kind subject pc d1 d2)).mark attentionPart := by
  simp [State.reportAt, State.raise_reportEnabled, State.raise_producer, State.raise_consumer, on, room]

/-- A full ring takes no record, and REPORT_OVERRUN is set. -/
theorem State.reportAt_full (on : s.reportEnabled kind = true) (full : 15359 ≤ s.producer - s.consumer) :
    s.reportAt pc kind subject d1 d2 = (s.raise kind.raises).raise fun f => { f with overrun := true } := by
  simp [State.reportAt, State.raise_reportEnabled, State.raise_producer, State.raise_consumer, on, Nat.not_lt_of_le full]

theorem State.reportAt_room_producer (on : s.reportEnabled kind = true) (room : s.producer - s.consumer < 15359) :
    (s.reportAt pc kind subject d1 d2).producer = s.producer + 1 := by
  rw [State.reportAt_room pc subject d1 d2 on room, (State.mark_quiet _ _).producer]
  exact (State.produce_quiet _ _ _ _).producer

theorem State.reportAt_room_eventFlags (on : s.reportEnabled kind = true) (room : s.producer - s.consumer < 15359) :
    (s.reportAt pc kind subject d1 d2).eventFlags = kind.raises s.eventFlags := by
  rw [State.reportAt_room pc subject d1 d2 on room, State.mark_eventFlags, State.produceControl, State.produce_eventFlags]
  exact s.raise_eventFlags kind.raises

/-- R176: the producer count goes up by one, and only with room in the ring. -/
theorem State.reportAt_producer_cases (s : State) (kind : ReportKind) :
    (s.reportAt pc kind subject d1 d2).producer = s.producer ∨
      (s.producer - s.consumer < 15359 ∧ (s.reportAt pc kind subject d1 d2).producer = s.producer + 1) := by
  cases on : s.reportEnabled kind with
  | false => exact .inl (by rw [State.reportAt_disabled pc subject d1 d2 on, State.raise_producer])
  | true =>
    rcases Nat.lt_or_ge (s.producer - s.consumer) 15359 with room | full
    · exact .inr ⟨room, State.reportAt_room_producer pc subject d1 d2 on room⟩
    · exact .inl (by rw [State.reportAt_full pc subject d1 d2 on full, State.raise_producer, State.raise_producer])

/-- R176: a report keeps the unconsumed records within the ring. -/
theorem State.reportAt_unconsumed (s : State) (kind : ReportKind) (h : s.producer - s.consumer ≤ 15359) :
    (s.reportAt pc kind subject d1 d2).producer - (s.reportAt pc kind subject d1 d2).consumer ≤ 15359 := by
  rw [(s.reportAt_reports pc kind subject d1 d2).consumer]
  rcases s.reportAt_producer_cases pc subject d1 d2 kind with same | ⟨room, next⟩ <;> omega

end

/-! ### A consumer write (R177) -/

/-- R177: the consumer copy after a consumer write of a count. -/
def State.consumerAfter (s : State) (v : Nat) : Nat :=
  if s.consumer ≤ v ∧ v ≤ s.producer then v else s.consumer

/-- A consumer write moves the consumer copy, marks the attention-and-ring beat if the copy changes, and does no more. -/
theorem State.consumerWrite_eq (s : State) (v : Nat) :
    s.consumerWrite v =
      if s.consumerAfter v = s.consumer then s else ({ s with consumer := s.consumerAfter v }).mark attentionPart := by
  by_cases range : s.consumer ≤ v ∧ v ≤ s.producer
  all_goals simp [State.consumerWrite, State.consumerAfter, range]

theorem State.consumerWrite_quiet (s : State) (v : Nat) :
    ({ s with consumer := s.consumerAfter v } : State).Quiet (s.consumerWrite v) := by
  rw [State.consumerWrite_eq]
  split
  next same =>
    rw [same]
    exact State.Quiet.refl s
  next => exact State.mark_quiet _ attentionPart

theorem State.consumerWrite_slots (s : State) (v : Nat) : (s.consumerWrite v).slots = s.slots := by
  rw [State.consumerWrite_eq]
  split
  · rfl
  · exact State.mark_slots _ attentionPart

theorem State.consumerWrite_marks {s : State} {v : Nat} (moved : s.consumerAfter v ≠ s.consumer) :
    attentionPart ∈ (s.consumerWrite v).dirty := by
  rw [State.consumerWrite_eq, if_neg moved]
  exact State.mem_mark_dirty _ attentionPart

theorem exec_consumerWrite {s : State} {data : Beat} {enables : Enables} {rest : List ControlBeat} (hs : s.Calm)
    (he : consumerEnabled enables = true)
    (hi : s.inbox = { offset := consumerOffset, data := data, enables := enables } :: rest) (dt : Nat) :
    exec (.consumerWrite dt data enables) s = .next ((s.atCommand dt rest).consumerWrite (field data 0 8)).settle := by
  obtain ⟨high, -⟩ := hs
  refine congrArg Host.Outcome.next ((State.event_running high dt _).trans (congrArg State.settle ?_))
  exact (if_pos he).trans (State.takeBeat_front (s := s.wait dt) high hi _)

/-- R159: a beat taken as nothing leaves the command unit's input, and nothing else happens. -/
theorem exec_controlWriteIgnored {s : State} {offset : Nat} {data : Beat} {enables : Enables} {rest : List ControlBeat}
    (hs : s.Calm) (ht : (ControlBeat.mk offset data enables).takenAs = .ignored)
    (hi : s.inbox = { offset := offset, data := data, enables := enables } :: rest) (dt : Nat) :
    exec (.controlWriteIgnored dt offset data enables) s = .next (s.atCommand dt rest) := by
  obtain ⟨high, clean⟩ := hs
  refine congrArg Host.Outcome.next ((State.event_running high dt _).trans ?_)
  refine (congrArg State.settle ((if_pos ht).trans (State.takeBeat_front (s := s.wait dt) high hi _))).trans ?_
  exact State.settle_clean (s.atCommand dt rest) clean

/-! ### The statements -/

/-- Settles O54: the flags by their bits, and the report by whether its kind is on and the ring has room. -/
theorem reportRingRule : Obligations.ReportRingRule := by
  refine ⟨ReportKind.raises_eq, fun s => ⟨s.flags_testBit, s.flags_lt, s.attn_iff⟩, fun s pc kind subject d1 d2 =>
    ⟨s.reportAt_reports pc kind subject d1 d2, s.reportAt_slots pc kind subject d1 d2, s.reportEnabled_start,
      s.reportAt_unconsumed pc subject d1 d2 kind, fun off => ?_, fun on room => ?_, fun on full => ?_⟩⟩
  · rw [State.reportAt_disabled pc subject d1 d2 off]
    exact ⟨s.raise_producer _, s.raise_ownQueue _, s.raise_offered _, s.raise_eventFlags _⟩
  · exact ⟨State.reportAt_room_producer pc subject d1 d2 on room, State.reportAt_room_eventFlags pc subject d1 d2 on room,
      s.reportAt_tells pc kind subject d1 d2⟩
  · rw [State.reportAt_full pc subject d1 d2 on full]
    simp only [State.raise_producer, State.raise_ownQueue, State.raise_offered, State.raise_eventFlags, and_self]

/-- Settles O35: a consumer write is quiet but for the consumer copy, and an ignored beat leaves nothing to rewrite. -/
theorem consumerAndIgnoredWrites : Obligations.ConsumerAndIgnoredWrites := by
  refine ⟨fun dt data enables s rest hs he hi => ?_,
    fun dt offset data enables s rest hs ht hi => exec_controlWriteIgnored hs ht hi dt⟩
  have quiet := ((s.atCommand dt rest).consumerWrite_quiet (field data 0 8)).trans (State.settle_quiet _)
  refine ⟨_, exec_consumerWrite hs he hi dt, quiet.reports, quiet.producer, quiet.eventFlags, ?_, fun moved => ?_⟩
  · rw [State.settle_slots, State.consumerWrite_slots]
    rfl
  · rw [quiet.reports.consumer] at moved
    exact State.settle_shows (State.consumerWrite_marks moved)

end Sys2Proof.Machine
end
